-- ==== Sys2Proof/Word.lean ====
section
/-! DEFINITION. The bit-vector types of the block: a byte of a frame, port or storage, a 32-bit scalar operand or
result, the 16-bit command word, and the 6-bit counts of the ports (spec/10_state.md R21, R22, R23). Every register
holds an unsigned bit vector of its stated width (spec/00_scope.md R10). -/

namespace Sys2Proof

/-- One byte: a frame byte, a port byte, a storage byte, an 8-bit register (R10, R21 to R23). -/
abbrev Byte := BitVec 8

/-- A 32-bit scalar: `ARG0` and `RES` (R21, R22). -/
abbrev Word := BitVec 32

/-- The 16-bit command word of `CMD` (R70). -/
abbrev CmdWord := BitVec 16

/-- A 6-bit port count: `SIN_LEN`, `SOUT_LEN`, `WIRE_IN_COUNT`, `WIRE_OUT_COUNT` (R21 to R23). -/
abbrev Count := BitVec 6

end Sys2Proof
end

