-- ==== Sys2Proof/Config.lean ====
section
/-! DEFINITION. What an implementation fixes: the constants of spec/00_scope.md R5 to R9, and the parameters the spec
leaves open as MODEL ARGUMENTS (R9, R40). The open parameters are plain data that a machine carries unchanged for its
life (R324), so every statement about all states speaks of every choice of them. -/

namespace Sys2Proof

/-- `HEADER_SIZE = 7` (R5). -/
def headerSize : Nat := 7

/-- `MAX_PAYLOAD = 25` (R5). -/
def maxPayload : Nat := 25

/-- `MAX_WIRE = 32`, the longest transmitted frame (R5). -/
def maxWire : Nat := 32

/-- `SIN_MAX = 50`, the capacity of the string input port (R9, D4). -/
def sinMax : Nat := 50

/-- `OUT_MAX = 50`, the capacity of the string output port (R9, D4). -/
def outMax : Nat := 50

/-- `FLOAT_MIN_WIDTH = 2` (R9, D17). -/
def floatMinWidth : Nat := 2

/-- `GATEWAY_ADDRESS = 0` (R7). -/
def gatewayAddress : Byte := 0

/-- `AUTO = 255`, "no address" (R7). -/
def autoAddress : Byte := 255

/-- `PROTOCOL_VERSION = 2` (R8). -/
def protocolVersion : BitVec 2 := 2

/-- `UNIT_METRIC = 1` (R9, R30). -/
def unitMetric : Byte := 1

/-- `UNIT_IMPERIAL = 0` (R9, R30). -/
def unitImperial : Byte := 0

/-- `UNIT_UNSET = 255` (R9, R30). -/
def unitUnset : Byte := 255

/-- What a storage byte that nothing has written reads as: 0xFF, the erased value (spec/92_eei_decisions.md D39;
notes/assumptions/6.md). -/
def erasedByte : Byte := 255

/-- `CFG_CMP_SOURCE`: what an update of the unit preference compares with (R9, R249, D26). -/
inductive CmpSource
  /-- The persisted byte `STORAGE[EE_UNIT]` (the default). -/
  | storage
  /-- The register `UNIT_PREF`. -/
  | register
deriving DecidableEq, Repr

/-- The open parameters of R9, R57 and R76. They are configuration: no operation and no reset changes them
(R40, R324). -/
structure Config where
  /-- `STORAGE_SIZE`, in bytes. -/
  storageSize : Nat
  /-- `EE_NODE_ID`, the storage offset of the node address. -/
  eeNodeId : Nat
  /-- `EE_UNIT`, the storage offset of the unit preference. -/
  eeUnit : Nat
  /-- `I_TIME`, the internal message code of a time response. -/
  iTime : Byte
  /-- `I_ID_REQUEST`. -/
  iIdRequest : Byte
  /-- `I_ID_RESPONSE`. -/
  iIdResponse : Byte
  /-- `I_CONFIG`. -/
  iConfig : Byte
  /-- `I_REBOOT`. -/
  iReboot : Byte
  /-- `STATIC_ID_PERSISTS`. -/
  staticIdPersists : Bool
  /-- `CFG_CMP_SOURCE`. -/
  cmpSource : CmpSource
deriving DecidableEq, Repr

/-- The defaults of R9 and R76. DESIGN CHOICE (notes/assumptions/2.md): R9 gives `STORAGE_SIZE`, `EE_NODE_ID` and `EE_UNIT`
no default; this configuration takes the smallest storage, with the address at 0 and the unit at 1. -/
def Config.standard : Config where
  storageSize := 2
  eeNodeId := 0
  eeUnit := 1
  iTime := 1
  iIdRequest := 3
  iIdResponse := 4
  iConfig := 6
  iReboot := 13
  staticIdPersists := false
  cmpSource := .storage

end Sys2Proof
end

