-- ==== Sys2Proof/Syntax.lean ====
section
/-! DEFINITION. The operations of the block: one constructor per row of spec/opcode_table.json (spec/30_encoding.md R80).
An operation whose `BUF` column is "sel" carries the frame buffer it acts on; the others have no operand in the
command word: every other operand is a register (R70, R78). -/

namespace Sys2Proof

/-- Which frame buffer `CMD[8]` selects (R70): 0 is the TX frame `FB[0]`, 1 the RX frame `FB[1]` (R26). -/
inductive Buf
  /-- `FB[0]`, the frame last sent or being built. -/
  | tx
  /-- `FB[1]`, the frame last received. -/
  | rx
deriving DecidableEq, Repr

/-- The 64 operations (R80). The docstring of a constructor gives its mnemonic and the rule that defines it. -/
inductive Instr
  /-- `NOP`, opcode 0x00 (R210). -/
  | nop
  /-- `GET_LAST`, opcode 0x01 (R101). -/
  | getLast (b : Buf)
  /-- `GET_SENDER`, opcode 0x02 (R102). -/
  | getSender (b : Buf)
  /-- `GET_DEST`, opcode 0x03 (R103). -/
  | getDest (b : Buf)
  /-- `GET_VERSION`, opcode 0x04 (R104). -/
  | getVersion (b : Buf)
  /-- `GET_SIGNED`, opcode 0x05 (R105). -/
  | getSigned (b : Buf)
  /-- `GET_LENGTH`, opcode 0x06 (R106). -/
  | getLength (b : Buf)
  /-- `GET_COMMAND`, opcode 0x07 (R107). -/
  | getCommand (b : Buf)
  /-- `GET_REQACK`, opcode 0x08 (R108). -/
  | getReqack (b : Buf)
  /-- `GET_ACK`, opcode 0x09 (R109). -/
  | getAck (b : Buf)
  /-- `GET_PTYPE`, opcode 0x0A (R110). -/
  | getPtype (b : Buf)
  /-- `GET_TYPE`, opcode 0x0B (R111). -/
  | getType (b : Buf)
  /-- `GET_SENSOR`, opcode 0x0C (R112). -/
  | getSensor (b : Buf)
  /-- `SET_LAST`, opcode 0x11 (R113). -/
  | setLast (b : Buf)
  /-- `SET_SENDER`, opcode 0x12 (R114). -/
  | setSender (b : Buf)
  /-- `SET_DEST`, opcode 0x13 (R115). -/
  | setDest (b : Buf)
  /-- `SET_VERSION`, opcode 0x14 (R116). -/
  | setVersion (b : Buf)
  /-- `SET_SIGNED`, opcode 0x15 (R117). -/
  | setSigned (b : Buf)
  /-- `SET_LENGTH`, opcode 0x16 (R118). -/
  | setLength (b : Buf)
  /-- `SET_COMMAND`, opcode 0x17 (R119). -/
  | setCommand (b : Buf)
  /-- `SET_REQACK`, opcode 0x18 (R120). -/
  | setReqack (b : Buf)
  /-- `SET_ACK`, opcode 0x19 (R121). -/
  | setAck (b : Buf)
  /-- `SET_PTYPE`, opcode 0x1A (R122). -/
  | setPtype (b : Buf)
  /-- `SET_TYPE`, opcode 0x1B (R123). -/
  | setType (b : Buf)
  /-- `SET_SENSOR`, opcode 0x1C (R124). -/
  | setSensor (b : Buf)
  /-- `SET_STRING`, opcode 0x20 (R141). -/
  | setString (b : Buf)
  /-- `SET_BYTE`, opcode 0x21 (R142). -/
  | setByte (b : Buf)
  /-- `SET_INT16`, opcode 0x22 (R143). -/
  | setInt16 (b : Buf)
  /-- `SET_UINT16`, opcode 0x23 (R144). -/
  | setUint16 (b : Buf)
  /-- `SET_LONG32`, opcode 0x24 (R145). -/
  | setLong32 (b : Buf)
  /-- `SET_ULONG32`, opcode 0x25 (R146). -/
  | setUlong32 (b : Buf)
  /-- `SET_CUSTOM`, opcode 0x26 (R147). -/
  | setCustom (b : Buf)
  /-- `SET_FLOAT32`, opcode 0x27 (R148). -/
  | setFloat32 (b : Buf)
  /-- `SET_PRESENTATION`, opcode 0x28 (R149). -/
  | setPresentation (b : Buf)
  /-- `GET_BYTE`, opcode 0x31 (R171). -/
  | getByte (b : Buf)
  /-- `GET_INT16`, opcode 0x32 (R172). -/
  | getInt16 (b : Buf)
  /-- `GET_UINT16`, opcode 0x33 (R173). -/
  | getUint16 (b : Buf)
  /-- `GET_LONG32`, opcode 0x34 (R174). -/
  | getLong32 (b : Buf)
  /-- `GET_ULONG32`, opcode 0x35 (R175). -/
  | getUlong32 (b : Buf)
  /-- `GET_FLOAT32`, opcode 0x37 (R176). -/
  | getFloat32 (b : Buf)
  /-- `GET_PRECISION`, opcode 0x38 (R177). -/
  | getPrecision (b : Buf)
  /-- `GET_PRESENTATION`, opcode 0x39 (R178). -/
  | getPresentation (b : Buf)
  /-- `GET_STRING`, opcode 0x3A (R182). -/
  | getString (b : Buf)
  /-- `GET_HEX`, opcode 0x3B (R183). -/
  | getHex (b : Buf)
  /-- `GET_RAW`, opcode 0x3C (R184). -/
  | getRaw (b : Buf)
  /-- `LOAD_HEX`, opcode 0x3D (R185). -/
  | loadHex (b : Buf)
  /-- `WIRE_DECODE`, opcode 0x40 (R211). -/
  | wireDecode
  /-- `WIRE_ENCODE`, opcode 0x41 (R212). -/
  | wireEncode
  /-- `FRAME_COPY`, opcode 0x42 (R213). -/
  | frameCopy
  /-- `BUILD_ACK`, opcode 0x43 (R214). -/
  | buildAck
  /-- `ID_LOAD`, opcode 0x50 (R231). -/
  | idLoad
  /-- `CFG_LOAD`, opcode 0x51 (R232). -/
  | cfgLoad
  /-- `ID_ADOPT`, opcode 0x52 (R233). -/
  | idAdopt
  /-- `ID_SET_STATIC`, opcode 0x53 (R234). -/
  | idSetStatic
  /-- `CFG_UPDATE`, opcode 0x54 (R235). -/
  | cfgUpdate
  /-- `ID_TX_CHECK`, opcode 0x55 (R236). -/
  | idTxCheck
  /-- `TX_RESULT`, opcode 0x56 (R237). -/
  | txResult
  /-- `GET_NODE_ID`, opcode 0x57 (R238). -/
  | getNodeId
  /-- `GET_UNIT_PREF`, opcode 0x58 (R239). -/
  | getUnitPref
  /-- `GET_FAIL_CNT`, opcode 0x59 (R240). -/
  | getFailCnt
  /-- `GET_ID_STATE`, opcode 0x5A (R241). -/
  | getIdState
  /-- `RX_CLASSIFY`, opcode 0x5B (R242). -/
  | rxClassify
  /-- `ID_ADOPT_RX`, opcode 0x5C (R243). -/
  | idAdoptRx
  /-- `CFG_UPDATE_RX`, opcode 0x5D (R244). -/
  | cfgUpdateRx
deriving DecidableEq, Repr

/-- The frame buffer an operation selects, if its `BUF` column is "sel" (R80). -/
def Instr.buf? : Instr → Option Buf
  | .getLast b => some b
  | .getSender b => some b
  | .getDest b => some b
  | .getVersion b => some b
  | .getSigned b => some b
  | .getLength b => some b
  | .getCommand b => some b
  | .getReqack b => some b
  | .getAck b => some b
  | .getPtype b => some b
  | .getType b => some b
  | .getSensor b => some b
  | .setLast b => some b
  | .setSender b => some b
  | .setDest b => some b
  | .setVersion b => some b
  | .setSigned b => some b
  | .setLength b => some b
  | .setCommand b => some b
  | .setReqack b => some b
  | .setAck b => some b
  | .setPtype b => some b
  | .setType b => some b
  | .setSensor b => some b
  | .setString b => some b
  | .setByte b => some b
  | .setInt16 b => some b
  | .setUint16 b => some b
  | .setLong32 b => some b
  | .setUlong32 b => some b
  | .setCustom b => some b
  | .setFloat32 b => some b
  | .setPresentation b => some b
  | .getByte b => some b
  | .getInt16 b => some b
  | .getUint16 b => some b
  | .getLong32 b => some b
  | .getUlong32 b => some b
  | .getFloat32 b => some b
  | .getPrecision b => some b
  | .getPresentation b => some b
  | .getString b => some b
  | .getHex b => some b
  | .getRaw b => some b
  | .loadHex b => some b
  | .nop => none
  | .wireDecode => none
  | .wireEncode => none
  | .frameCopy => none
  | .buildAck => none
  | .idLoad => none
  | .cfgLoad => none
  | .idAdopt => none
  | .idSetStatic => none
  | .cfgUpdate => none
  | .idTxCheck => none
  | .txResult => none
  | .getNodeId => none
  | .getUnitPref => none
  | .getFailCnt => none
  | .getIdState => none
  | .rxClassify => none
  | .idAdoptRx => none
  | .cfgUpdateRx => none

end Sys2Proof
end

