-- ==== Sys2Proof/WellFormed.lean ====
section
/-! DEFINITION. What is well formed, as Boolean checks: a command word (spec/30_encoding.md R81, R82) and a configuration
(spec/20_memory.md R57, spec/30_encoding.md R76). A term of `Instr` has no ill-formed form: its one operand is a
buffer, and an operation with a fixed buffer carries none, so the checks fall on the WORD a host issues. -/

namespace Sys2Proof

/-- The first check of R81: `CMD[15:9] = 0`. -/
def reservedClear (w : CmdWord) : Bool := w.toNat / 512 == 0

/-- The unassigned values of `OP`, as R82 lists them. -/
def unassignedOpcode (op : Nat) : Bool :=
  (0x0D ≤ op && op ≤ 0x10) || (0x1D ≤ op && op ≤ 0x1F) || (0x29 ≤ op && op ≤ 0x30) || op == 0x36
    || op == 0x3E || op == 0x3F || (0x44 ≤ op && op ≤ 0x4F) || (0x5E ≤ op && op ≤ 0xFF)

/-- The second check of R81: `CMD[7:0]` is assigned. -/
def opcodeAssigned (w : CmdWord) : Bool := !unassignedOpcode (w.toNat % 256)

/-- The opcodes whose `BUF` column is "0" (R80): `NOP`, and all of the transfer and identity families. -/
def fixedBufferOpcode (op : Nat) : Bool := op == 0 || 0x40 ≤ op

/-- The third check of R81: `CMD[8] = 0` where the `BUF` column is "0". -/
def bufferAllowed (w : CmdWord) : Bool := !(fixedBufferOpcode (w.toNat % 256) && w.toNat / 256 % 2 == 1)

/-- A command word is legal when it passes the three checks of R81 (R82). -/
def legalWord (w : CmdWord) : Bool := reservedClear w && opcodeAssigned w && bufferAllowed w

/-- `STORAGE_SIZE` is at least 2 (R9). -/
def Config.sizeOk (c : Config) : Bool := 2 ≤ c.storageSize

/-- Both offsets lie inside the storage (R57). -/
def Config.offsetsInside (c : Config) : Bool := c.eeNodeId < c.storageSize && c.eeUnit < c.storageSize

/-- `EE_NODE_ID != EE_UNIT` (R57). -/
def Config.offsetsDistinct (c : Config) : Bool := c.eeNodeId != c.eeUnit

/-- The five internal message codes, in R76's order. -/
def Config.codes (c : Config) : List Byte := [c.iTime, c.iIdRequest, c.iIdResponse, c.iConfig, c.iReboot]

/-- The five internal message codes are pairwise distinct (R76). -/
def Config.codesDistinct (c : Config) : Bool := decide c.codes.Nodup

/-- A well-formed configuration (R9, R57, R76). One that is not is refused (R57). -/
def Config.wf (c : Config) : Bool := c.sizeOk && c.offsetsInside && c.offsetsDistinct && c.codesDistinct

end Sys2Proof
end

