-- ==== Sys2Proof/Decode.lean ====
section
/-! DEFINITION. Decoding a command word (spec/30_encoding.md R70, R81), and after it the encoder written from the same
table (R80, R84). A word R81 fails is rejected by name; what the block then does (`STATUS <- ILLEGAL_OP`, R82) is the
command port's (Machine/Port.lean). -/

namespace Sys2Proof

/-- Why a command word is illegal: the three checks of R81, in their order. -/
inductive DecodeError
  /-- `CMD[15:9] != 0`. -/
  | reservedBits
  /-- `CMD[7:0]` is none of the 64 opcodes. -/
  | unassignedOpcode
  /-- `CMD[8] != 0` for an operation whose `BUF` column is "0". -/
  | bufOnFixedOpcode
deriving DecidableEq, Repr

/-- `OP = CMD[7:0]` (R70). -/
def opField (w : CmdWord) : Byte := w.extractLsb' 0 8

/-- `BUF = CMD[8]` (R70). -/
def bufField (w : CmdWord) : Buf := if w.getLsbD 8 then .rx else .tx

/-- `CMD[15:9]`, reserved, must be 0 (R70). -/
def reservedField (w : CmdWord) : BitVec 7 := w.extractLsb' 9 7

/-- The operation an opcode stands for (R80); `b` is used where the `BUF` column is "sel". -/
def opcodeInstr (op : Byte) (b : Buf) : Option Instr :=
  match op with
  | 0x00#8 => some .nop
  | 0x01#8 => some (.getLast b)
  | 0x02#8 => some (.getSender b)
  | 0x03#8 => some (.getDest b)
  | 0x04#8 => some (.getVersion b)
  | 0x05#8 => some (.getSigned b)
  | 0x06#8 => some (.getLength b)
  | 0x07#8 => some (.getCommand b)
  | 0x08#8 => some (.getReqack b)
  | 0x09#8 => some (.getAck b)
  | 0x0A#8 => some (.getPtype b)
  | 0x0B#8 => some (.getType b)
  | 0x0C#8 => some (.getSensor b)
  | 0x11#8 => some (.setLast b)
  | 0x12#8 => some (.setSender b)
  | 0x13#8 => some (.setDest b)
  | 0x14#8 => some (.setVersion b)
  | 0x15#8 => some (.setSigned b)
  | 0x16#8 => some (.setLength b)
  | 0x17#8 => some (.setCommand b)
  | 0x18#8 => some (.setReqack b)
  | 0x19#8 => some (.setAck b)
  | 0x1A#8 => some (.setPtype b)
  | 0x1B#8 => some (.setType b)
  | 0x1C#8 => some (.setSensor b)
  | 0x20#8 => some (.setString b)
  | 0x21#8 => some (.setByte b)
  | 0x22#8 => some (.setInt16 b)
  | 0x23#8 => some (.setUint16 b)
  | 0x24#8 => some (.setLong32 b)
  | 0x25#8 => some (.setUlong32 b)
  | 0x26#8 => some (.setCustom b)
  | 0x27#8 => some (.setFloat32 b)
  | 0x28#8 => some (.setPresentation b)
  | 0x31#8 => some (.getByte b)
  | 0x32#8 => some (.getInt16 b)
  | 0x33#8 => some (.getUint16 b)
  | 0x34#8 => some (.getLong32 b)
  | 0x35#8 => some (.getUlong32 b)
  | 0x37#8 => some (.getFloat32 b)
  | 0x38#8 => some (.getPrecision b)
  | 0x39#8 => some (.getPresentation b)
  | 0x3A#8 => some (.getString b)
  | 0x3B#8 => some (.getHex b)
  | 0x3C#8 => some (.getRaw b)
  | 0x3D#8 => some (.loadHex b)
  | 0x40#8 => some .wireDecode
  | 0x41#8 => some .wireEncode
  | 0x42#8 => some .frameCopy
  | 0x43#8 => some .buildAck
  | 0x50#8 => some .idLoad
  | 0x51#8 => some .cfgLoad
  | 0x52#8 => some .idAdopt
  | 0x53#8 => some .idSetStatic
  | 0x54#8 => some .cfgUpdate
  | 0x55#8 => some .idTxCheck
  | 0x56#8 => some .txResult
  | 0x57#8 => some .getNodeId
  | 0x58#8 => some .getUnitPref
  | 0x59#8 => some .getFailCnt
  | 0x5A#8 => some .getIdState
  | 0x5B#8 => some .rxClassify
  | 0x5C#8 => some .idAdoptRx
  | 0x5D#8 => some .cfgUpdateRx
  | _ => none

/-- Decoding a command word, in R81's order of checks. -/
def decode (w : CmdWord) : Except DecodeError Instr :=
  if reservedField w = 0 then
    match opcodeInstr (opField w) (bufField w) with
    | none => .error .unassignedOpcode
    | some i => if i.buf? = none ∧ bufField w = .rx then .error .bufOnFixedOpcode else .ok i
  else .error .reservedBits

/-- The opcode of an operation (R80). -/
def opcode : Instr → Byte
  | .nop => 0x00
  | .getLast _ => 0x01
  | .getSender _ => 0x02
  | .getDest _ => 0x03
  | .getVersion _ => 0x04
  | .getSigned _ => 0x05
  | .getLength _ => 0x06
  | .getCommand _ => 0x07
  | .getReqack _ => 0x08
  | .getAck _ => 0x09
  | .getPtype _ => 0x0A
  | .getType _ => 0x0B
  | .getSensor _ => 0x0C
  | .setLast _ => 0x11
  | .setSender _ => 0x12
  | .setDest _ => 0x13
  | .setVersion _ => 0x14
  | .setSigned _ => 0x15
  | .setLength _ => 0x16
  | .setCommand _ => 0x17
  | .setReqack _ => 0x18
  | .setAck _ => 0x19
  | .setPtype _ => 0x1A
  | .setType _ => 0x1B
  | .setSensor _ => 0x1C
  | .setString _ => 0x20
  | .setByte _ => 0x21
  | .setInt16 _ => 0x22
  | .setUint16 _ => 0x23
  | .setLong32 _ => 0x24
  | .setUlong32 _ => 0x25
  | .setCustom _ => 0x26
  | .setFloat32 _ => 0x27
  | .setPresentation _ => 0x28
  | .getByte _ => 0x31
  | .getInt16 _ => 0x32
  | .getUint16 _ => 0x33
  | .getLong32 _ => 0x34
  | .getUlong32 _ => 0x35
  | .getFloat32 _ => 0x37
  | .getPrecision _ => 0x38
  | .getPresentation _ => 0x39
  | .getString _ => 0x3A
  | .getHex _ => 0x3B
  | .getRaw _ => 0x3C
  | .loadHex _ => 0x3D
  | .wireDecode => 0x40
  | .wireEncode => 0x41
  | .frameCopy => 0x42
  | .buildAck => 0x43
  | .idLoad => 0x50
  | .cfgLoad => 0x51
  | .idAdopt => 0x52
  | .idSetStatic => 0x53
  | .cfgUpdate => 0x54
  | .idTxCheck => 0x55
  | .txResult => 0x56
  | .getNodeId => 0x57
  | .getUnitPref => 0x58
  | .getFailCnt => 0x59
  | .getIdState => 0x5A
  | .rxClassify => 0x5B
  | .idAdoptRx => 0x5C
  | .cfgUpdateRx => 0x5D

/-- The bit of `CMD[8]` (R70). -/
def Buf.bit : Buf → Bool
  | .tx => false
  | .rx => true

/-- `CMD = zext_16(BUF) << 8 | OP` (R84), with `BUF = 0` where the column is "0". -/
def encode (i : Instr) : CmdWord :=
  (BitVec.ofBool ((i.buf?.getD .tx).bit)).setWidth 16 <<< 8 ||| (opcode i).setWidth 16

/-- The instruction the decoder reads from `nbits` bits `w`, numbered as spec/opcode_table.json numbers them. The one command
length is 16 bits, one word, written to `CMD` whole (R70), so no byte order enters; wider bits select nothing. -/
def decodeTableWord (nbits w : Nat) : Option Instr :=
  if w % 2 ^ nbits < 2 ^ 16 then (decode (BitVec.ofNat 16 (w % 2 ^ nbits))).toOption else none

end Sys2Proof
end

