-- ==== Sys2Proof/Machine/State.lean ====
section
/-! DEFINITION. The state of the block as plain data: every register, port, buffer and external byte of spec/10_state.md,
the ways a step can stop, and the state after reset. -/

namespace Sys2Proof.Machine

/-- A frame buffer: 33 bytes `FB[b][0..32]`, 7 header bytes, 25 payload bytes and the terminator position (R26, R71). -/
abbrev Frame := Vector Byte 33

/-- Persisted storage `STORAGE` as the (address, byte) pairs that differ from the erased value, addresses strictly rising
(R39, R58; spec/92_eei_decisions.md D39). -/
abbrev Memory := List Host.Cell

/-- The completion codes of `STATUS` (R28, R301); `Status.code` (Machine/Flags.lean) gives their numbers. -/
inductive Status
  | ok
  | typeMismatch
  | truncated
  | malformed
  | hexInvalid
  | outOverflow
  | illegalOp
  | illegalState
  | halted
  | badOperand
  | deniedAuto
deriving DecidableEq, Repr

/-- The stages of the address lifecycle, the values of `ID_STATE` (R34). -/
inductive Lifecycle
  | unassigned
  | requesting
  | assigned
  | halted
deriving DecidableEq, Repr

/-- The payload type tags (R75). -/
inductive PayloadTag
  | string
  | byte
  | int16
  | uint16
  | long32
  | ulong32
  | custom
  | float32
deriving DecidableEq, Repr

/-- The five commands the source names (R74); codes 5 to 7 name none. -/
inductive Command
  | presentation
  | set
  | request
  | internal
  | stream
deriving DecidableEq, Repr

/-- The classes `RX_CLASSIFY` reports in `RES[3:0]` (R242). -/
inductive RxClass
  | dropVersion
  | notForMe
  | app
  | intReboot
  | intIdResponse
  | intConfig
  | intTime
  | intOther
deriving DecidableEq, Repr

/-- Why the machine stops with a fault. -/
inductive Fault
  /-- A storage access at an address not below `STORAGE_SIZE`, which R39 says does not exist (notes/assumptions/7.md).
  Raised by `memRead` and `memWrite`. Only a configuration R57 calls ill-configured can raise it, and `step` refuses that
  one first. Safe: the model stops where the spec gives no effect. -/
  | storageAddress
deriving DecidableEq, Repr

/-- Why the machine refuses. -/
inductive Refusal
  /-- An operation with no meaning in the model, by its mnemonic. Raised by no arm of `exec` now. Safe. -/
  | notModelled (mnemonic : String)
  /-- A configuration whose offsets or message codes break R57 or R76: "ill-configured and is refused"
  (notes/assumptions/7.md). Raised by `step`. Safe: nothing is claimed of such a machine. -/
  | illConfigured
deriving DecidableEq, Repr

/-- The registers only the host writes (R21, R23, R24). -/
structure Inputs where
  /-- `CMD`, the command word. -/
  cmd : CmdWord
  /-- `ARG0`, the first scalar operand. -/
  arg0 : Word
  /-- `ARG1`, the second scalar operand. -/
  arg1 : Byte
  /-- `SIN[0..49]`, the byte-string operand. -/
  sin : Vector Byte 50
  /-- `SIN_LEN`. -/
  sinLen : Count
  /-- `WIRE_IN[0..31]`, the bytes of a received frame. -/
  wireIn : Vector Byte 32
  /-- `WIRE_IN_COUNT`. -/
  wireInCount : Count
deriving DecidableEq, Repr

/-- What the host agent does at the block's boundary, one atomic action each (R20, R24, R320). -/
inductive HostAction
  /-- Write `CMD`. -/
  | wrCmd (w : CmdWord)
  /-- Write `ARG0`. -/
  | wrArg0 (v : Word)
  /-- Write `ARG1`. -/
  | wrArg1 (v : Byte)
  /-- Write the first bytes of `SIN`; the port's other bytes are not written. -/
  | wrSin (bytes : List Byte)
  /-- Write `SIN_LEN`. -/
  | wrSinLen (n : Count)
  /-- Write the first bytes of `WIRE_IN`; the port's other bytes are not written. -/
  | wrWireIn (bytes : List Byte)
  /-- Write `WIRE_IN_COUNT`. -/
  | wrWireInCount (n : Count)
  /-- Issue the command word in `CMD`: the block performs the whole operation (R20, R63). -/
  | issue
  /-- Reset: power-on, reboot or external reset (R320). `after` is what the host-written registers hold afterwards, which
  R321 leaves unspecified: every value is some action (notes/assumptions/11.md). -/
  | reset (after : Inputs)
deriving DecidableEq, Repr

/-- The block, its two external storage bytes' medium, its configuration, and the host's actions still to come. -/
structure State where
  /-- The host-written registers (R21, R23). -/
  inp : Inputs
  /-- `RES` (R22). -/
  res : Word
  /-- `SOUT[0..49]` (R22). -/
  sout : Vector Byte 50
  /-- `SOUT_LEN` (R22). -/
  soutLen : Count
  /-- `STATUS` (R22, R28). -/
  status : Byte
  /-- `WIRE_OUT[0..31]` (R23). -/
  wireOut : Vector Byte 32
  /-- `WIRE_OUT_COUNT` (R23). -/
  wireOutCount : Count
  /-- `WIRE_OUT_DEST` (R23). -/
  wireOutDest : Byte
  /-- `FB[0]`, the TX frame (R26). -/
  tx : Frame
  /-- `FB[1]`, the RX frame (R26). -/
  rx : Frame
  /-- `NODE_ID` (R29). -/
  nodeId : Byte
  /-- `UNIT_PREF` (R30). -/
  unitPref : Byte
  /-- `FAIL_CNT`, `FAIL_W` = 8 bits (R31). -/
  failCnt : Byte
  /-- `HALTED` (R32). -/
  halted : Bool
  /-- `REQ_PENDING` (R33). -/
  reqPending : Bool
  /-- `STORAGE` (R39). -/
  storage : Memory
  /-- `STORAGE_WRITES`, the history of storage writes, oldest first (R58). -/
  storageWrites : List Host.Cell
  /-- The configuration, fixed for the life of the machine (R40, R324; notes/assumptions/7.md). -/
  cfg : Config
  /-- The MODEL's own field: what the host agent does next, first action first (R20, R25; notes/assumptions/1.md). -/
  script : List HostAction
deriving DecidableEq, Repr

/-- What the host-written registers hold in `State.reset`. DESIGN CHOICE (notes/assumptions/3.md): R37 leaves them
unspecified until the host writes them. -/
def Inputs.zero : Inputs where
  cmd := 0
  arg0 := 0
  arg1 := 0
  sin := Vector.replicate 50 0
  sinLen := 0
  wireIn := Vector.replicate 32 0
  wireInCount := 0

/-- The machine right after reset (R37, R321), with erased storage (D39), the standard configuration, and a host that
has done nothing yet. -/
def State.reset : State where
  inp := Inputs.zero
  res := 0
  sout := Vector.replicate 50 0
  soutLen := 0
  status := 0
  wireOut := Vector.replicate 32 0
  wireOutCount := 0
  wireOutDest := 0
  tx := Vector.replicate 33 0
  rx := Vector.replicate 33 0
  nodeId := autoAddress
  unitPref := unitUnset
  failCnt := 0
  halted := false
  reqPending := false
  storage := []
  storageWrites := []
  cfg := Config.standard
  script := []

end Sys2Proof.Machine
end

