-- ==== Sys2Proof/Machine/Flags.lean ====
section
/-! DEFINITION. The codes of the status register, of the lifecycle, of the payload tags, commands and receive classes
(spec/10_state.md R28, R34; spec/30_encoding.md R74, R75; spec/44_identity.md R242). -/

namespace Sys2Proof.Machine

/-- The code of a completion (R28, R301). -/
def Status.code : Status → Byte
  | .ok => 0x00
  | .typeMismatch => 0x01
  | .truncated => 0x02
  | .malformed => 0x03
  | .hexInvalid => 0x04
  | .outOverflow => 0x05
  | .illegalOp => 0x06
  | .illegalState => 0x07
  | .halted => 0x08
  | .badOperand => 0x09
  | .deniedAuto => 0x0A

/-- The number of a lifecycle stage (R34). -/
def Lifecycle.code : Lifecycle → Word
  | .unassigned => 0
  | .requesting => 1
  | .assigned => 2
  | .halted => 3

/-- `ID_STATE`, a function of `HALTED`, `NODE_ID` and `REQ_PENDING` (R34). -/
def State.idState (s : State) : Lifecycle :=
  if s.halted then .halted
  else if s.nodeId ≠ autoAddress then .assigned
  else if s.reqPending then .requesting
  else .unassigned

/-- The code of a payload tag (R75). -/
def PayloadTag.code : PayloadTag → BitVec 3
  | .string => 0
  | .byte => 1
  | .int16 => 2
  | .uint16 => 3
  | .long32 => 4
  | .ulong32 => 5
  | .custom => 6
  | .float32 => 7

/-- The tag a `PTYPE` value selects; all eight values are used (R75). -/
def PayloadTag.ofBits (v : BitVec 3) : PayloadTag :=
  match v with
  | 0#3 => .string
  | 1#3 => .byte
  | 2#3 => .int16
  | 3#3 => .uint16
  | 4#3 => .long32
  | 5#3 => .ulong32
  | 6#3 => .custom
  | _ => .float32

/-- The code of a command (R74). -/
def Command.code : Command → BitVec 3
  | .presentation => 0
  | .set => 1
  | .request => 2
  | .internal => 3
  | .stream => 4

/-- The code of a receive class in `RES[3:0]` (R242). -/
def RxClass.code : RxClass → BitVec 4
  | .dropVersion => 0
  | .notForMe => 1
  | .app => 2
  | .intReboot => 3
  | .intIdResponse => 4
  | .intConfig => 5
  | .intTime => 6
  | .intOther => 7

end Sys2Proof.Machine
end

