-- ==== Sys2Proof/Machine/Operands.lean ====
section
/-! DEFINITION. Operand forms: the packed header fields of a frame (spec/30_encoding.md R71, R72), payload bytes
(spec/00_scope.md R11), little-endian assembly (R11, R52), the writes of a frame's fields and payload
(spec/41_payload_set.md R140), and the operand registers (R78). -/

namespace Sys2Proof.Machine

/-- `SETF(byte, hi, lo, v)`: bits `hi..lo` become the low bits of `v`, the others stay (R72). -/
def setF (x : Byte) (hi lo : Nat) (v : Byte) : Byte :=
  let mask : Byte := BitVec.ofNat 8 ((2 ^ (hi - lo + 1) - 1) * 2 ^ lo)
  (x &&& ~~~mask) ||| ((v <<< lo) &&& mask)

/-- `le16(x0, x1) = x1 : x0` (R11). -/
def le16 (x0 x1 : Byte) : BitVec 16 := x1 ++ x0

/-- `le32(x0, x1, x2, x3) = x3 : x2 : x1 : x0` (R11). -/
def le32 (x0 x1 x2 x3 : Byte) : Word := x3 ++ x2 ++ x1 ++ x0

/-- The two bytes of a 16-bit value, least significant first (R52, R143). -/
def bytes16 (v : BitVec 16) : List Byte := [v.extractLsb' 0 8, v.extractLsb' 8 8]

/-- The four bytes of a 32-bit value, least significant first (R52, R145). -/
def bytes32 (v : Word) : List Byte :=
  [v.extractLsb' 0 8, v.extractLsb' 8 8, v.extractLsb' 16 8, v.extractLsb' 24 8]

/-- The low byte of a 32-bit operand, `ARG0[7:0]` (R78). -/
def lowByte (v : Word) : Byte := v.extractLsb' 0 8

/-- `FB[b][i]`, 0 beyond the 33 bytes, which no operation reads (R26, R50). -/
def Frame.byte (f : Frame) (i : Nat) : Byte := if h : i < 33 then f[i] else 0

/-- `PL[b][i] = FB[b][7+i]` (R11). -/
def Frame.pl (f : Frame) (i : Nat) : Byte := f.byte (headerSize + i)

/-- `LAST(b)` (R72). -/
def Frame.last (f : Frame) : Byte := f[0]

/-- `SENDER(b)` (R72). -/
def Frame.sender (f : Frame) : Byte := f[1]

/-- `DEST(b)` (R72). -/
def Frame.dest (f : Frame) : Byte := f[2]

/-- `VERSION(b) = FB[b][3][1:0]` (R72). -/
def Frame.version (f : Frame) : BitVec 2 := f[3].extractLsb' 0 2

/-- `SIGNED(b) = FB[b][3][2]` (R72). -/
def Frame.signedFlag (f : Frame) : BitVec 1 := f[3].extractLsb' 2 1

/-- `LEN(b) = FB[b][3][7:3]` (R72). -/
def Frame.lenField (f : Frame) : BitVec 5 := f[3].extractLsb' 3 5

/-- `LEN(b)` as a number, 0 to 31. -/
def Frame.len (f : Frame) : Nat := f.lenField.toNat

/-- `COMMAND(b) = FB[b][4][2:0]` (R72). -/
def Frame.command (f : Frame) : BitVec 3 := f[4].extractLsb' 0 3

/-- `REQACK(b) = FB[b][4][3]` (R72). -/
def Frame.reqAck (f : Frame) : BitVec 1 := f[4].extractLsb' 3 1

/-- `ACK(b) = FB[b][4][4]` (R72). -/
def Frame.ack (f : Frame) : BitVec 1 := f[4].extractLsb' 4 1

/-- `PTYPE(b) = FB[b][4][7:5]` (R72). -/
def Frame.ptype (f : Frame) : BitVec 3 := f[4].extractLsb' 5 3

/-- `TYPE(b)` (R72). -/
def Frame.typeByte (f : Frame) : Byte := f[5]

/-- `SENSOR(b)` (R72). -/
def Frame.sensor (f : Frame) : Byte := f[6]

/-- The first `k` payload bytes, `PL[b][0..k-1]`. -/
def Frame.payload (f : Frame) (k : Nat) : List Byte := (List.range k).map f.pl

/-- `K(b) = min(LEN(b), 25)` (R170). -/
def Frame.clampedLen (f : Frame) : Nat := min f.len maxPayload

/-- `OVERLONG(b)`: `LEN(b) > 25` (R170). -/
def Frame.overlong (f : Frame) : Bool := maxPayload < f.len

/-- `CHECK(b, tag, size)` (R170). -/
def Frame.holds (f : Frame) (tag : PayloadTag) (size : Nat) : Bool := f.ptype == tag.code && size ≤ f.len

/-- The little-endian 16-bit value at `PL[b][0..1]` (R53). -/
def Frame.value16 (f : Frame) : BitVec 16 := le16 (f.pl 0) (f.pl 1)

/-- The little-endian 32-bit value at `PL[b][0..3]` (R53). -/
def Frame.value32 (f : Frame) : Word := le32 (f.pl 0) (f.pl 1) (f.pl 2) (f.pl 3)

/-- The low `w` bits of a header setter's operand, as a byte for `setF` (R78, R100). -/
def fieldOperand (w : Nat) (v : Word) : Byte := (v.extractLsb' 0 w).setWidth 8

/-- Bytes into the payload from `PL[b][0]` on, then the in-memory terminator 0; every other byte stays (R140). -/
def Frame.putPayload (f : Frame) (bytes : List Byte) : Frame :=
  Vector.ofFn fun j =>
    if j.val < headerSize then f[j]
    else if j.val - headerSize < bytes.length then bytes.getD (j.val - headerSize) 0
    else if j.val - headerSize = bytes.length then 0
    else f[j]

/-- `LEN(b) <- n` (R140). -/
def Frame.putLen (f : Frame) (n : Nat) : Frame := f.set 3 (setF f[3] 7 3 (BitVec.ofNat 8 n))

/-- `PTYPE(b) <- tag` (R140). -/
def Frame.putPtype (f : Frame) (tag : BitVec 3) : Frame := f.set 4 (setF f[4] 7 5 (tag.setWidth 8))

/-- `SETPAYLOAD(b, tag, bytes, n)` with `n` the number of bytes, at most 25 (R140). -/
def Frame.setPayload (f : Frame) (tag : BitVec 3) (bytes : List Byte) : Frame :=
  ((f.putPayload bytes).putLen bytes.length).putPtype tag

/-- `SIN[0..n-1]` (R78). -/
def Inputs.sinBytes (p : Inputs) (n : Nat) : List Byte := p.sin.toList.take n

/-- The length field of the frame on `WIRE_IN`, `WIRE_IN[3][7:3]` (R211). -/
def Inputs.wireLen (p : Inputs) : Nat := (p.wireIn[3].extractLsb' 3 5).toNat

/-- A 50-byte port holding `text` from its first byte, 0 beyond it (R22). -/
def port50 (text : List Byte) : Vector Byte 50 := Vector.ofFn fun j => text.getD j.val 0

end Sys2Proof.Machine
end

