-- ==== Sys2Proof/Machine/Text.lean ====
section
/-! DEFINITION. Text conversions: decimal text (spec/42_payload_get.md R179), hex text (R180) and its inverse (R185),
float text (R181), and the text of a payload (R182). Characters are bytes holding ASCII codes (spec/00_scope.md R12). -/

namespace Sys2Proof.Machine

/-- The ASCII digit of `d`, for `d` below 10. -/
def digitChar (d : Nat) : Byte := BitVec.ofNat 8 (0x30 + d)

/-- The decimal digits of `n`, most significant first; the first argument bounds the number of digits. -/
def decDigits : Nat → Nat → List Byte
  | 0, _ => []
  | fuel + 1, n =>
    if n < 10 then [digitChar n] else decDigits fuel (n / 10) ++ [digitChar (n % 10)]

/-- `DEC(v)` of a natural number (R179). -/
def decNat (n : Nat) : List Byte := decDigits (n + 1) n

/-- `DEC(v)` of an integer: "-" before the digits of a negative number (R179). -/
def decInt (v : Int) : List Byte := if v < 0 then 0x2D :: decNat v.natAbs else decNat v.natAbs

/-- The hex digit of a nibble, uppercase (R180). -/
def hexDigit (d : BitVec 4) : Byte :=
  if d.toNat ≤ 9 then BitVec.ofNat 8 (0x30 + d.toNat) else BitVec.ofNat 8 (0x41 + (d.toNat - 10))

/-- `HEX(x)`: two digits a byte, the high nibble first (R180). -/
def hexText (bytes : List Byte) : List Byte :=
  bytes.flatMap fun x => [hexDigit (x.extractLsb' 4 4), hexDigit (x.extractLsb' 0 4)]

/-- `HV(c)`: the value of a hex character of either case; none of any other (R185). -/
def hexValue? (c : Byte) : Option (BitVec 4) :=
  let n := c.toNat
  if 0x30 ≤ n ∧ n ≤ 0x39 then some (BitVec.ofNat 4 (n - 0x30))
  else if 0x41 ≤ n ∧ n ≤ 0x46 then some (BitVec.ofNat 4 (n - 0x41 + 10))
  else if 0x61 ≤ n ∧ n ≤ 0x66 then some (BitVec.ofNat 4 (n - 0x61 + 10))
  else none

/-- The bytes of a hex text: none where its length is odd or a character is not hex (R185). -/
def hexBytes? : List Byte → Option (List Byte)
  | [] => some []
  | [_] => none
  | a :: b :: rest =>
    match hexValue? a, hexValue? b, hexBytes? rest with
    | some h, some l, some bytes => some ((h ++ l) :: bytes)
    | _, _, _ => none

/-- The significand of a finite binary32 number: its value is `significand * 2 ^ scale / 2 ^ 150` (R181, IEEE 754). -/
def floatSignificand (w : Word) : Nat :=
  let e := (w.extractLsb' 23 8).toNat
  let f := (w.extractLsb' 0 23).toNat
  if e = 0 then f else 2 ^ 23 + f

/-- The biased exponent of a finite binary32 number, a subnormal's being 1. -/
def floatScale (w : Word) : Nat := max (w.extractLsb' 23 8).toNat 1

/-- `floor(m * 10^p + 1/2)` for the magnitude `m` of a finite binary32 number, in exact arithmetic (R181). -/
def floatRounded (w : Word) (p : Nat) : Nat :=
  (2 * floatSignificand w * 2 ^ floatScale w * 10 ^ p + 2 ^ 150) / 2 ^ 151

/-- `n` as exactly `p` digits with leading zeros, for `n` below `10 ^ p` (R181). -/
def paddedDigits (p n : Nat) : List Byte :=
  let d := decNat n
  List.replicate (p - d.length) 0x30 ++ d

/-- The text before the minimum width is applied (R181). -/
def floatBody (w : Word) (p : Nat) : List Byte :=
  let s := w.getLsbD 31
  let e := (w.extractLsb' 23 8).toNat
  let f := (w.extractLsb' 0 23).toNat
  if e = 0xFF ∧ f ≠ 0 then [0x6E, 0x61, 0x6E]
  else if e = 0xFF then (if s then [0x2D, 0x69, 0x6E, 0x66] else [0x69, 0x6E, 0x66])
  else
    let r := floatRounded w p
    (if s then [0x2D] else []) ++ decNat (r / 10 ^ p)
      ++ (if 0 < p then 0x2E :: paddedDigits p (r % 10 ^ p) else [])

/-- `FMT_FLOAT(w, p)`, the default of R181 (notes/assumptions/4.md). -/
def fmtFloat (w : Word) (p : Nat) : List Byte :=
  let text := floatBody w p
  List.replicate (floatMinWidth - text.length) 0x20 ++ text

/-- The status of a clamped read: `MALFORMED` where `LEN(b) > 25` (R170). -/
def Frame.clampedStatus (f : Frame) : Status := if f.overlong then .malformed else .ok

/-- The text of a payload and the status it is delivered with; none for a numeric payload shorter than its type
(R182). -/
def Frame.text? (f : Frame) : Option (List Byte × Status) :=
  match PayloadTag.ofBits f.ptype with
  | .string => some (f.payload f.clampedLen, f.clampedStatus)
  | .custom => some (hexText (f.payload f.clampedLen), f.clampedStatus)
  | .byte => if f.len < 1 then none else some (decNat (f.pl 0).toNat, .ok)
  | .int16 => if f.len < 2 then none else some (decInt f.value16.toInt, .ok)
  | .uint16 => if f.len < 2 then none else some (decNat f.value16.toNat, .ok)
  | .long32 => if f.len < 4 then none else some (decInt f.value32.toInt, .ok)
  | .ulong32 => if f.len < 4 then none else some (decNat f.value32.toNat, .ok)
  | .float32 => if f.len < 5 then none else some (fmtFloat f.value32 (f.pl 4).toNat, .ok)

end Sys2Proof.Machine
end

