-- ==== Sys2Proof/Machine/Ops.lean ====
section
/-! DEFINITION. The named operations over storage, frame buffers and registers that every meaning is built from:
`MemRead` and `MemWrite` (spec/20_memory.md R58), `finish` and `fail` (spec/00_scope.md R11), the frame select
(spec/30_encoding.md R70), the shared cores of the header, payload, text, transfer and identity families, and reset
(spec/70_reset_and_hazards.md R320 to R322). The block has no exception to take and none to return from
(spec/60_exceptions.md R300, R305, R306): `fail` is what an operation that reports an error does instead. -/

namespace Sys2Proof.Machine

/-- What an operation answers. -/
abbrev Out := Host.Outcome State Fault Refusal

/-- Byte `a` of storage: the erased value where nothing is listed (R58, D39). -/
def Memory.read : Memory → Nat → Byte
  | [], _ => erasedByte
  | c :: m, a => if c.1 = a then c.2 else Memory.read m a

/-- The storage with byte `a` listed as `v`. -/
def Memory.insert : Memory → Nat → Byte → Memory
  | [], a, v => [(a, v)]
  | c :: m, a, v =>
    if a < c.1 then (a, v) :: c :: m
    else if a = c.1 then (a, v) :: m
    else c :: Memory.insert m a v

/-- The storage with byte `a` not listed. -/
def Memory.erase : Memory → Nat → Memory
  | [], _ => []
  | c :: m, a => if c.1 = a then m else c :: Memory.erase m a

/-- `STORAGE[a] <- v` in the canonical form: writing the erased value removes the entry. -/
def Memory.write (m : Memory) (a : Nat) (v : Byte) : Memory :=
  if v = erasedByte then m.erase a else m.insert a v

/-- The canonical form: addresses strictly rising, and no byte listed with the erased value. -/
def Memory.wf : Memory → Bool
  | [] => true
  | c :: m => c.2 != erasedByte && m.all (fun d => c.1 < d.1) && Memory.wf m

/-- `MemRead(a, 1)`: none outside `STORAGE[0..STORAGE_SIZE-1]` (R39, R58). -/
def State.memRead (s : State) (a : Nat) : Option Byte :=
  if a < s.cfg.storageSize then some (s.storage.read a) else none

/-- `MemWrite(a, 1, v)`: the byte is written and the write recorded; none outside storage (R39, R58). -/
def State.memWrite (s : State) (a : Nat) (v : Byte) : Option State :=
  if a < s.cfg.storageSize then
    some { s with storage := s.storage.write a v, storageWrites := s.storageWrites ++ [(a, v)] }
  else none

/-- `finish(S)`: `STATUS <- S`; what the operation wrote before stands (R11). -/
def State.finish (s : State) (st : Status) : State := { s with status := st.code }

/-- `fail(S)`: `STATUS <- S` and no other change, applied to the state the operation began in (R11, R302). -/
def State.fail (s : State) (st : Status) : Out := .next (s.finish st)

/-- `RES <- v` (R22). -/
def State.setRes (s : State) (v : Word) : State := { s with res := v }

/-- `SOUT <- text` from byte 0, zero beyond it, and `SOUT_LEN <- |text|` (R22). -/
def State.setSout (s : State) (text : List Byte) : State :=
  { s with sout := port50 text, soutLen := BitVec.ofNat 6 text.length }

/-- `FB[b]` (R26, R70). -/
def State.fb (s : State) : Buf → Frame
  | .tx => s.tx
  | .rx => s.rx

/-- `FB[b] <- f`. -/
def State.setFb (s : State) (b : Buf) (f : Frame) : State :=
  match b with
  | .tx => { s with tx := f }
  | .rx => { s with rx := f }

/-- A header or register read: `RES <- v; finish(OK)` (R100). -/
def State.answer (s : State) (v : Word) : Out := .next ((s.setRes v).finish .ok)

/-- A header write: one byte of the frame changes, `finish(OK)` (R100). -/
def State.putHeader (s : State) (b : Buf) (f : Frame) : Out := .next ((s.setFb b f).finish .ok)

/-- A payload setter: `SETPAYLOAD(b, tag, bytes, n)`, then `finish(S)` (R140). -/
def State.putPayload (s : State) (b : Buf) (tag : BitVec 3) (bytes : List Byte) (st : Status) : Out :=
  .next ((s.setFb b ((s.fb b).setPayload tag bytes)).finish st)

/-- A string or custom setter: refused above 50 bytes, cut to 25 above 25 (R141, R147). -/
def State.putSin (s : State) (b : Buf) (tag : PayloadTag) : Out :=
  let n := s.inp.sinLen.toNat
  if sinMax < n then s.fail .badOperand
  else s.putPayload b tag.code (s.inp.sinBytes (min n maxPayload)) (if maxPayload < n then .truncated else .ok)

/-- A scalar getter: zero and `TYPE_MISMATCH` where `CHECK` fails, else `RES <- v; finish(OK)` (R170). -/
def State.getTyped (s : State) (b : Buf) (tag : PayloadTag) (size : Nat) (v : Word) : Out :=
  if (s.fb b).holds tag size then s.answer v else .next ((s.setRes 0).finish .typeMismatch)

/-- Text to `SOUT`, cleared with `OUT_OVERFLOW` where it does not fit (R182). -/
def State.putText (s : State) (text : List Byte) (st : Status) : Out :=
  if outMax < text.length then .next ((s.setSout []).finish .outOverflow) else .next ((s.setSout text).finish st)

/-- `IS_IDREQ(b)`: an internal frame whose type is `I_ID_REQUEST` (R245). -/
def Frame.isIdRequest (f : Frame) (c : Config) : Bool :=
  f.command == Command.internal.code && f.typeByte == c.iIdRequest

/-- The gate's test: unassigned, and the TX frame is not an identity request (R212, R236). -/
def State.needsId (s : State) : Bool := s.nodeId == autoAddress && !s.tx.isIdRequest s.cfg

/-- The RX frame after `WIRE_DECODE` of a frame with `n` payload bytes: the wire bytes, then the in-memory terminator; the
bytes beyond keep their values (R211). -/
def Frame.receive (f : Frame) (wire : Vector Byte 32) (n : Nat) : Frame :=
  Vector.ofFn fun j =>
    if j.val < headerSize + n then (if h : j.val < 32 then wire[j.val] else 0)
    else if j.val = headerSize + n then 0
    else f[j]

/-- The wire port's bytes for a frame with `n` payload bytes, zero-filled (R212). -/
def Frame.wireImage (f : Frame) (n : Nat) : Vector Byte 32 :=
  Vector.ofFn fun j => if j.val < headerSize + n then f[j.val] else 0

/-- The acknowledgment of frame `f` by the node `a`: the copy with request-ack clear, is-ack set, the sender `a` and the
destination `f`'s sender (R214). -/
def Frame.ackOf (f : Frame) (a : Byte) : Frame :=
  let g := f.set 4 (setF (setF f[4] 3 3 0) 4 4 1)
  (g.set 1 a).set 2 f.sender

/-- `DEC_ADDR(b)`: the address an identity response carries, as a byte or as 1 to 3 decimal digits of at most 255
(R246). -/
def Frame.decAddr? (f : Frame) : Option Byte :=
  if f.ptype = PayloadTag.byte.code ∧ 1 ≤ f.len then some (f.pl 0)
  else if f.ptype = PayloadTag.string.code ∧ 1 ≤ f.len ∧ f.len ≤ 3 then
    let digits := f.payload f.len
    let v := digits.foldl (fun acc c => 10 * acc + (c.toNat - 0x30)) 0
    if digits.all (fun c => 0x30 ≤ c.toNat && c.toNat ≤ 0x39) ∧ v ≤ 255 then some (BitVec.ofNat 8 v) else none
  else none

/-- `DEC_UNIT(b)`: the preference a configuration response carries, by its first character (R247). -/
def Frame.decUnit? (f : Frame) : Option Byte :=
  if f.ptype = PayloadTag.string.code ∧ 1 ≤ f.len then
    if f.pl 0 = 0x4D then some unitMetric
    else if f.pl 0 = 0x49 then some unitImperial
    else none
  else none

/-- Write-on-change of storage byte `a`, then `finish(OK)` (R234, R248). -/
def State.persist (s : State) (a : Nat) (v : Byte) : Out :=
  match s.memRead a with
  | none => .fault .storageAddress
  | some old =>
    if old = v then .next (s.finish .ok)
    else
      match s.memWrite a v with
      | none => .fault .storageAddress
      | some t => .next (t.finish .ok)

/-- `ADOPT(a)` (R248): adopting `AUTO` enters the terminal halt and stores nothing. -/
def State.adopt (s : State) (a : Byte) : Out :=
  if s.halted then s.fail .halted
  else if s.nodeId ≠ autoAddress then s.fail .illegalState
  else if a = autoAddress then .next ({ s with halted := true, reqPending := false }.finish .halted)
  else State.persist { s with nodeId := a, reqPending := false } s.cfg.eeNodeId a

/-- The value an update of the unit preference is compared with (R249). -/
def State.currentUnit (s : State) : Option Byte :=
  match s.cfg.cmpSource with
  | .storage => s.memRead s.cfg.eeUnit
  | .register => some s.unitPref

/-- `UPDATE(v)` (R249). -/
def State.updateUnit (s : State) (v : Byte) : Out :=
  match s.currentUnit with
  | none => .fault .storageAddress
  | some cur =>
    if cur = v then .next ({ s with unitPref := v }.finish .ok)
    else
      match s.memWrite s.cfg.eeUnit v with
      | none => .fault .storageAddress
      | some t => .next ({ t with unitPref := v }.finish .ok)

/-- The class of the RX frame (R242), in the rule's order of tests. -/
def State.rxClass (s : State) : RxClass :=
  let f := s.rx
  if f.version ≠ protocolVersion then .dropVersion
  else if f.dest ≠ s.nodeId then .notForMe
  else if f.command = Command.internal.code ∧ f.sender = gatewayAddress then
    if f.typeByte = s.cfg.iReboot then .intReboot
    else if f.typeByte = s.cfg.iIdResponse then .intIdResponse
    else if f.typeByte = s.cfg.iConfig then .intConfig
    else if f.typeByte = s.cfg.iTime then .intTime
    else .intOther
  else .app

/-- `RES` of `RX_CLASSIFY`: `REQACK(1) << 4 | k`, the flag reported only for a frame that is not dropped (R242). -/
def State.rxReport (s : State) : Word :=
  let k := s.rxClass
  let ackNeeded : BitVec 1 := if k = .dropVersion ∨ k = .notForMe then 0 else s.rx.reqAck
  (ackNeeded ++ k.code).setWidth 32

/-- Reset: every register and both frame buffers take the values of R37; storage, its history and the configuration
stay (R320 to R322, R324). `after` is what the host-written registers hold, which R321 leaves unspecified. -/
def State.resetEvent (s : State) (after : Inputs) : State :=
  { State.reset with
    inp := after, storage := s.storage, storageWrites := s.storageWrites, cfg := s.cfg, script := s.script }

end Sys2Proof.Machine
end

