-- ==== Sys2Proof/Machine/Header.lean ====
section
/-! DEFINITION. The header field operations, spec/40_header_fields.md R101 to R124. A getter answers the field
zero-extended; a setter changes only the field's bits, taking the low bits of `ARG0` (R100). -/

namespace Sys2Proof.Machine

/-- `GET_LAST`: the last hop of frame `b` (R101). -/
def execGetLast (b : Buf) (s : State) : Out := s.answer ((s.fb b).last.setWidth 32)

/-- `GET_SENDER`: the origin of frame `b` (R102). -/
def execGetSender (b : Buf) (s : State) : Out := s.answer ((s.fb b).sender.setWidth 32)

/-- `GET_DEST`: the destination of frame `b` (R103). -/
def execGetDest (b : Buf) (s : State) : Out := s.answer ((s.fb b).dest.setWidth 32)

/-- `GET_VERSION`: the 2-bit protocol version of frame `b` (R104). -/
def execGetVersion (b : Buf) (s : State) : Out := s.answer ((s.fb b).version.setWidth 32)

/-- `GET_SIGNED`: the signed-payload flag of frame `b` (R105). -/
def execGetSigned (b : Buf) (s : State) : Out := s.answer ((s.fb b).signedFlag.setWidth 32)

/-- `GET_LENGTH`: the 5-bit payload length of frame `b` (R106). -/
def execGetLength (b : Buf) (s : State) : Out := s.answer ((s.fb b).lenField.setWidth 32)

/-- `GET_COMMAND`: the 3-bit command of frame `b` (R107). -/
def execGetCommand (b : Buf) (s : State) : Out := s.answer ((s.fb b).command.setWidth 32)

/-- `GET_REQACK`: the request-ack flag of frame `b` (R108). -/
def execGetReqack (b : Buf) (s : State) : Out := s.answer ((s.fb b).reqAck.setWidth 32)

/-- `GET_ACK`: the is-ack flag of frame `b` (R109). -/
def execGetAck (b : Buf) (s : State) : Out := s.answer ((s.fb b).ack.setWidth 32)

/-- `GET_PTYPE`: the 3-bit payload type tag of frame `b` (R110). -/
def execGetPtype (b : Buf) (s : State) : Out := s.answer ((s.fb b).ptype.setWidth 32)

/-- `GET_TYPE`: the `type` byte of frame `b` (R111). -/
def execGetType (b : Buf) (s : State) : Out := s.answer ((s.fb b).typeByte.setWidth 32)

/-- `GET_SENSOR`: the sensor identifier of frame `b` (R112). -/
def execGetSensor (b : Buf) (s : State) : Out := s.answer ((s.fb b).sensor.setWidth 32)

/-- `SET_LAST`: `FB[b][0] <- ARG0[7:0]` (R113). -/
def execSetLast (b : Buf) (s : State) : Out :=
  s.putHeader b ((s.fb b).set 0 (lowByte s.inp.arg0))

/-- `SET_SENDER`: `FB[b][1] <- ARG0[7:0]` (R114). -/
def execSetSender (b : Buf) (s : State) : Out :=
  s.putHeader b ((s.fb b).set 1 (lowByte s.inp.arg0))

/-- `SET_DEST`: `FB[b][2] <- ARG0[7:0]` (R115). -/
def execSetDest (b : Buf) (s : State) : Out :=
  s.putHeader b ((s.fb b).set 2 (lowByte s.inp.arg0))

/-- `SET_VERSION`: `FB[b][3] <- SETF(FB[b][3], 1, 0, ARG0[1:0])` (R116). -/
def execSetVersion (b : Buf) (s : State) : Out :=
  s.putHeader b ((s.fb b).set 3 (setF (s.fb b)[3] 1 0 (fieldOperand 2 s.inp.arg0)))

/-- `SET_SIGNED`: `FB[b][3] <- SETF(FB[b][3], 2, 2, ARG0[0])` (R117). -/
def execSetSigned (b : Buf) (s : State) : Out :=
  s.putHeader b ((s.fb b).set 3 (setF (s.fb b)[3] 2 2 (fieldOperand 1 s.inp.arg0)))

/-- `SET_LENGTH`: `FB[b][3] <- SETF(FB[b][3], 7, 3, ARG0[4:0])` (R118). -/
def execSetLength (b : Buf) (s : State) : Out :=
  s.putHeader b ((s.fb b).set 3 (setF (s.fb b)[3] 7 3 (fieldOperand 5 s.inp.arg0)))

/-- `SET_COMMAND`: `FB[b][4] <- SETF(FB[b][4], 2, 0, ARG0[2:0])` (R119). -/
def execSetCommand (b : Buf) (s : State) : Out :=
  s.putHeader b ((s.fb b).set 4 (setF (s.fb b)[4] 2 0 (fieldOperand 3 s.inp.arg0)))

/-- `SET_REQACK`: `FB[b][4] <- SETF(FB[b][4], 3, 3, ARG0[0])` (R120). -/
def execSetReqack (b : Buf) (s : State) : Out :=
  s.putHeader b ((s.fb b).set 4 (setF (s.fb b)[4] 3 3 (fieldOperand 1 s.inp.arg0)))

/-- `SET_ACK`: `FB[b][4] <- SETF(FB[b][4], 4, 4, ARG0[0])` (R121). -/
def execSetAck (b : Buf) (s : State) : Out :=
  s.putHeader b ((s.fb b).set 4 (setF (s.fb b)[4] 4 4 (fieldOperand 1 s.inp.arg0)))

/-- `SET_PTYPE`: `FB[b][4] <- SETF(FB[b][4], 7, 5, ARG0[2:0])` (R122). -/
def execSetPtype (b : Buf) (s : State) : Out :=
  s.putHeader b ((s.fb b).set 4 (setF (s.fb b)[4] 7 5 (fieldOperand 3 s.inp.arg0)))

/-- `SET_TYPE`: `FB[b][5] <- ARG0[7:0]` (R123). -/
def execSetType (b : Buf) (s : State) : Out :=
  s.putHeader b ((s.fb b).set 5 (lowByte s.inp.arg0))

/-- `SET_SENSOR`: `FB[b][6] <- ARG0[7:0]` (R124). -/
def execSetSensor (b : Buf) (s : State) : Out :=
  s.putHeader b ((s.fb b).set 6 (lowByte s.inp.arg0))

end Sys2Proof.Machine
end

