-- ==== Sys2Proof/Machine/Identity.lean ====
section
/-! DEFINITION. The identity register file operations, spec/44_identity.md R231 to R244. -/

namespace Sys2Proof.Machine

/-- `ID_LOAD`: the node address from storage; refused while halted (R231). -/
def execIdLoad (s : State) : Out :=
  if s.halted then s.fail .halted
  else
    match s.memRead s.cfg.eeNodeId with
    | none => .fault .storageAddress
    | some v => .next ({ s with nodeId := v, reqPending := false }.finish .ok)

/-- `CFG_LOAD`: the unit preference from storage, metric where it is unset (R232). -/
def execCfgLoad (s : State) : Out :=
  match s.memRead s.cfg.eeUnit with
  | none => .fault .storageAddress
  | some v => .next ({ s with unitPref := if v = unitUnset then unitMetric else v }.finish .ok)

/-- `ID_ADOPT`: adopt `ARG0[7:0]` (R233). -/
def execIdAdopt (s : State) : Out := s.adopt (lowByte s.inp.arg0)

/-- `ID_SET_STATIC`: install the static address `ARG0[7:0]`, stored only where `STATIC_ID_PERSISTS` (R234). -/
def execIdSetStatic (s : State) : Out :=
  let a := lowByte s.inp.arg0
  let t := { s with nodeId := a, reqPending := false }
  if s.halted then s.fail .halted
  else if a = autoAddress then s.fail .badOperand
  else if s.cfg.staticIdPersists then t.persist s.cfg.eeNodeId a
  else .next (t.finish .ok)

/-- `CFG_UPDATE`: install the unit preference `ARG0[7:0]`, metric or imperial only (R235). -/
def execCfgUpdate (s : State) : Out :=
  let v := lowByte s.inp.arg0
  if v ≠ unitMetric ∧ v ≠ unitImperial then s.fail .badOperand else s.updateUnit v

/-- `ID_TX_CHECK`: whether the TX frame may be sent: 2 halted, 1 address needed, 0 yes (R236). -/
def execIdTxCheck (s : State) : Out := s.answer (if s.halted then 2 else if s.needsId then 1 else 0)

/-- `TX_RESULT`: a success clears the failure counter, a failure counts, modulo 2^8 (R237). -/
def execTxResult (s : State) : Out :=
  .next ({ s with failCnt := if s.inp.arg0.getLsbD 0 then 0 else s.failCnt + 1 }.finish .ok)

/-- `GET_NODE_ID` (R238). -/
def execGetNodeId (s : State) : Out := s.answer (s.nodeId.setWidth 32)

/-- `GET_UNIT_PREF` (R239). -/
def execGetUnitPref (s : State) : Out := s.answer (s.unitPref.setWidth 32)

/-- `GET_FAIL_CNT` (R240). -/
def execGetFailCnt (s : State) : Out := s.answer (s.failCnt.setWidth 32)

/-- `GET_ID_STATE` (R241). -/
def execGetIdState (s : State) : Out := s.answer s.idState.code

/-- `RX_CLASSIFY`: what the engine must do with the RX frame (R242). -/
def execRxClassify (s : State) : Out := s.answer s.rxReport

/-- `ID_ADOPT_RX`: adopt the address the RX frame carries; the state is checked before the payload (R243). -/
def execIdAdoptRx (s : State) : Out :=
  if s.halted then s.fail .halted
  else if s.nodeId ≠ autoAddress then s.fail .illegalState
  else
    match s.rx.decAddr? with
    | none => s.fail .typeMismatch
    | some a => s.adopt a

/-- `CFG_UPDATE_RX`: install the preference the RX frame carries (R244). -/
def execCfgUpdateRx (s : State) : Out :=
  match s.rx.decUnit? with
  | none => s.fail .typeMismatch
  | some v => s.updateUnit v

end Sys2Proof.Machine
end

