-- ==== Sys2Proof/Machine/PayloadGet.lean ====
section
/-! DEFINITION. The payload getters and conversions, spec/42_payload_get.md R171 to R178 and R182 to R185. -/

namespace Sys2Proof.Machine

/-- `GET_BYTE` (R171). -/
def execGetByte (b : Buf) (s : State) : Out := s.getTyped b .byte 1 (((s.fb b).pl 0).setWidth 32)

/-- `GET_INT16`, sign-extended (R172). -/
def execGetInt16 (b : Buf) (s : State) : Out := s.getTyped b .int16 2 ((s.fb b).value16.signExtend 32)

/-- `GET_UINT16`, zero-extended (R173). -/
def execGetUint16 (b : Buf) (s : State) : Out := s.getTyped b .uint16 2 ((s.fb b).value16.setWidth 32)

/-- `GET_LONG32` (R174). -/
def execGetLong32 (b : Buf) (s : State) : Out := s.getTyped b .long32 4 (s.fb b).value32

/-- `GET_ULONG32` (R175). -/
def execGetUlong32 (b : Buf) (s : State) : Out := s.getTyped b .ulong32 4 (s.fb b).value32

/-- `GET_FLOAT32`: the bit pattern unchanged (R176). -/
def execGetFloat32 (b : Buf) (s : State) : Out := s.getTyped b .float32 5 (s.fb b).value32

/-- `GET_PRECISION` (R177). -/
def execGetPrecision (b : Buf) (s : State) : Out := s.getTyped b .float32 5 (((s.fb b).pl 4).setWidth 32)

/-- `GET_PRESENTATION`: `PL[b][1] : PL[b][0]` (R178). -/
def execGetPresentation (b : Buf) (s : State) : Out :=
  s.getTyped b .custom 2 ((((s.fb b).pl 1) ++ ((s.fb b).pl 0)).setWidth 32)

/-- `GET_STRING`: the text of the payload for every tag (R182). -/
def execGetString (b : Buf) (s : State) : Out :=
  match (s.fb b).text? with
  | none => s.putText [] .typeMismatch
  | some (text, st) => s.putText text st

/-- `GET_HEX`: the payload bytes as hex text, for every tag (R183). -/
def execGetHex (b : Buf) (s : State) : Out :=
  .next ((s.setSout (hexText ((s.fb b).payload (s.fb b).clampedLen))).finish (s.fb b).clampedStatus)

/-- `GET_RAW`: the payload bytes, for every tag (R184). -/
def execGetRaw (b : Buf) (s : State) : Out :=
  .next ((s.setSout ((s.fb b).payload (s.fb b).clampedLen)).finish (s.fb b).clampedStatus)

/-- `LOAD_HEX`: hex text of `SIN` into the payload, under the tag `ARG1[2:0]` (R185). -/
def execLoadHex (b : Buf) (s : State) : Out :=
  if sinMax < s.inp.sinLen.toNat ∨ s.inp.arg1.extractLsb' 3 5 ≠ 0 then s.fail .badOperand
  else
    match hexBytes? (s.inp.sinBytes s.inp.sinLen.toNat) with
    | none => s.fail .hexInvalid
    | some bytes => s.putPayload b (s.inp.arg1.extractLsb' 0 3) bytes .ok

end Sys2Proof.Machine
end

