-- ==== Sys2Proof/Machine/PayloadSet.lean ====
section
/-! DEFINITION. The payload setters, spec/41_payload_set.md R141 to R149. -/

namespace Sys2Proof.Machine

/-- `SET_STRING`: the string of `SIN`, cut to 25 bytes (R141). -/
def execSetString (b : Buf) (s : State) : Out := s.putSin b .string

/-- `SET_BYTE`: `ARG0[7:0]` (R142). -/
def execSetByte (b : Buf) (s : State) : Out :=
  s.putPayload b PayloadTag.byte.code [lowByte s.inp.arg0] .ok

/-- `SET_INT16`: `ARG0[15:0]`, little-endian (R143). -/
def execSetInt16 (b : Buf) (s : State) : Out :=
  s.putPayload b PayloadTag.int16.code (bytes16 (s.inp.arg0.extractLsb' 0 16)) .ok

/-- `SET_UINT16`: `ARG0[15:0]`, little-endian (R144). -/
def execSetUint16 (b : Buf) (s : State) : Out :=
  s.putPayload b PayloadTag.uint16.code (bytes16 (s.inp.arg0.extractLsb' 0 16)) .ok

/-- `SET_LONG32`: `ARG0`, little-endian (R145). -/
def execSetLong32 (b : Buf) (s : State) : Out :=
  s.putPayload b PayloadTag.long32.code (bytes32 s.inp.arg0) .ok

/-- `SET_ULONG32`: `ARG0`, little-endian (R146). -/
def execSetUlong32 (b : Buf) (s : State) : Out :=
  s.putPayload b PayloadTag.ulong32.code (bytes32 s.inp.arg0) .ok

/-- `SET_CUSTOM`: the bytes of `SIN`, cut to 25 (R147). -/
def execSetCustom (b : Buf) (s : State) : Out := s.putSin b .custom

/-- `SET_FLOAT32`: the bit pattern `ARG0` unchanged, then the precision `ARG1` (R148). -/
def execSetFloat32 (b : Buf) (s : State) : Out :=
  s.putPayload b PayloadTag.float32.code (bytes32 s.inp.arg0 ++ [s.inp.arg1]) .ok

/-- `SET_PRESENTATION`: the library version `ARG0[7:0]`, then the sensor class `ARG1`, under the custom tag (R149). -/
def execSetPresentation (b : Buf) (s : State) : Out :=
  s.putPayload b PayloadTag.custom.code [lowByte s.inp.arg0, s.inp.arg1] .ok

end Sys2Proof.Machine
end

