-- ==== Sys2Proof/Machine/Transfer.lean ====
section
/-! DEFINITION. The frame transfer operations, spec/43_frame_transfer.md R210 to R214. -/

namespace Sys2Proof.Machine

/-- `NOP`: `finish(OK)` and nothing else (R210). -/
def execNop (s : State) : Out := .next (s.finish .ok)

/-- `WIRE_DECODE`: the frame on `WIRE_IN` into the RX frame (R211). -/
def execWireDecode (s : State) : Out :=
  let c := s.inp.wireInCount.toNat
  let n := s.inp.wireLen
  if c < headerSize ∨ maxWire < c then s.fail .malformed
  else if maxPayload < n ∨ c < headerSize + n then s.fail .malformed
  else .next ({ s with rx := s.rx.receive s.inp.wireIn n }.finish .ok)

/-- `WIRE_ENCODE`: the TX frame's wire bytes to `WIRE_OUT`, behind the transmission gate (R212). -/
def execWireEncode (s : State) : Out :=
  let n := s.tx.len
  if s.halted then .next ({ s with wireOutCount := 0 }.finish .halted)
  else if maxPayload < n then .next ({ s with wireOutCount := 0 }.finish .malformed)
  else if s.needsId then .next ({ s with wireOutCount := 0 }.finish .deniedAuto)
  else
    .next ({ s with
      wireOut := s.tx.wireImage n
      wireOutCount := BitVec.ofNat 6 (headerSize + n)
      wireOutDest := s.tx.dest
      reqPending := s.nodeId == autoAddress || s.reqPending }.finish .ok)

/-- `FRAME_COPY`: all 33 bytes of the RX frame into the TX frame (R213). -/
def execFrameCopy (s : State) : Out := .next ({ s with tx := s.rx }.finish .ok)

/-- `BUILD_ACK`: the acknowledgment of the RX frame in the TX frame (R214). -/
def execBuildAck (s : State) : Out := .next ({ s with tx := s.rx.ackOf s.nodeId }.finish .ok)

end Sys2Proof.Machine
end

