-- ==== Sys2Proof/Machine/Dispatch.lean ====
section
/-! DEFINITION. One arm per operation of spec/opcode_table.json: the meaning it has. -/

namespace Sys2Proof.Machine

def exec (i : Instr) (s : State) : Host.Outcome State Fault Refusal :=
  match i with
  | .nop => Sys2Proof.Machine.execNop s
  | .getLast b => Sys2Proof.Machine.execGetLast b s
  | .getSender b => Sys2Proof.Machine.execGetSender b s
  | .getDest b => Sys2Proof.Machine.execGetDest b s
  | .getVersion b => Sys2Proof.Machine.execGetVersion b s
  | .getSigned b => Sys2Proof.Machine.execGetSigned b s
  | .getLength b => Sys2Proof.Machine.execGetLength b s
  | .getCommand b => Sys2Proof.Machine.execGetCommand b s
  | .getReqack b => Sys2Proof.Machine.execGetReqack b s
  | .getAck b => Sys2Proof.Machine.execGetAck b s
  | .getPtype b => Sys2Proof.Machine.execGetPtype b s
  | .getType b => Sys2Proof.Machine.execGetType b s
  | .getSensor b => Sys2Proof.Machine.execGetSensor b s
  | .setLast b => Sys2Proof.Machine.execSetLast b s
  | .setSender b => Sys2Proof.Machine.execSetSender b s
  | .setDest b => Sys2Proof.Machine.execSetDest b s
  | .setVersion b => Sys2Proof.Machine.execSetVersion b s
  | .setSigned b => Sys2Proof.Machine.execSetSigned b s
  | .setLength b => Sys2Proof.Machine.execSetLength b s
  | .setCommand b => Sys2Proof.Machine.execSetCommand b s
  | .setReqack b => Sys2Proof.Machine.execSetReqack b s
  | .setAck b => Sys2Proof.Machine.execSetAck b s
  | .setPtype b => Sys2Proof.Machine.execSetPtype b s
  | .setType b => Sys2Proof.Machine.execSetType b s
  | .setSensor b => Sys2Proof.Machine.execSetSensor b s
  | .setString b => Sys2Proof.Machine.execSetString b s
  | .setByte b => Sys2Proof.Machine.execSetByte b s
  | .setInt16 b => Sys2Proof.Machine.execSetInt16 b s
  | .setUint16 b => Sys2Proof.Machine.execSetUint16 b s
  | .setLong32 b => Sys2Proof.Machine.execSetLong32 b s
  | .setUlong32 b => Sys2Proof.Machine.execSetUlong32 b s
  | .setCustom b => Sys2Proof.Machine.execSetCustom b s
  | .setFloat32 b => Sys2Proof.Machine.execSetFloat32 b s
  | .setPresentation b => Sys2Proof.Machine.execSetPresentation b s
  | .getByte b => Sys2Proof.Machine.execGetByte b s
  | .getInt16 b => Sys2Proof.Machine.execGetInt16 b s
  | .getUint16 b => Sys2Proof.Machine.execGetUint16 b s
  | .getLong32 b => Sys2Proof.Machine.execGetLong32 b s
  | .getUlong32 b => Sys2Proof.Machine.execGetUlong32 b s
  | .getFloat32 b => Sys2Proof.Machine.execGetFloat32 b s
  | .getPrecision b => Sys2Proof.Machine.execGetPrecision b s
  | .getPresentation b => Sys2Proof.Machine.execGetPresentation b s
  | .getString b => Sys2Proof.Machine.execGetString b s
  | .getHex b => Sys2Proof.Machine.execGetHex b s
  | .getRaw b => Sys2Proof.Machine.execGetRaw b s
  | .loadHex b => Sys2Proof.Machine.execLoadHex b s
  | .wireDecode => Sys2Proof.Machine.execWireDecode s
  | .wireEncode => Sys2Proof.Machine.execWireEncode s
  | .frameCopy => Sys2Proof.Machine.execFrameCopy s
  | .buildAck => Sys2Proof.Machine.execBuildAck s
  | .idLoad => Sys2Proof.Machine.execIdLoad s
  | .cfgLoad => Sys2Proof.Machine.execCfgLoad s
  | .idAdopt => Sys2Proof.Machine.execIdAdopt s
  | .idSetStatic => Sys2Proof.Machine.execIdSetStatic s
  | .cfgUpdate => Sys2Proof.Machine.execCfgUpdate s
  | .idTxCheck => Sys2Proof.Machine.execIdTxCheck s
  | .txResult => Sys2Proof.Machine.execTxResult s
  | .getNodeId => Sys2Proof.Machine.execGetNodeId s
  | .getUnitPref => Sys2Proof.Machine.execGetUnitPref s
  | .getFailCnt => Sys2Proof.Machine.execGetFailCnt s
  | .getIdState => Sys2Proof.Machine.execGetIdState s
  | .rxClassify => Sys2Proof.Machine.execRxClassify s
  | .idAdoptRx => Sys2Proof.Machine.execIdAdoptRx s
  | .cfgUpdateRx => Sys2Proof.Machine.execCfgUpdateRx s

end Sys2Proof.Machine
end

