-- ==== Sys2Proof/Machine/Port.lean ====
section
/-! DEFINITION. The command port and the host's side of it: performing the command in `CMD` (spec/10_state.md R20,
spec/30_encoding.md R81, R82), the host's register writes (R24), reset (spec/70_reset_and_hazards.md R320), and the
assembler lines of spec/30_encoding.md R84 as sequences of these actions. -/

namespace Sys2Proof.Machine

/-- The block performs the command in `CMD`; an illegal one writes `STATUS <- ILLEGAL_OP` and nothing else (R81, R82). -/
def runCommand (s : State) : Out :=
  match decode s.inp.cmd with
  | .ok i => exec i s
  | .error _ => s.fail .illegalOp

/-- A byte vector with its first bytes replaced by `bytes`; bytes beyond the vector are dropped. -/
def overwrite {n : Nat} (v : Vector Byte n) (bytes : List Byte) : Vector Byte n :=
  Vector.ofFn fun j => bytes.getD j.val v[j]

/-- A change of the host-written registers. -/
def State.setInp (s : State) (p : Inputs) : State := { s with inp := p }

/-- The effect of one host action (R20, R24, R320). -/
def hostAction (a : HostAction) (s : State) : Out :=
  match a with
  | .wrCmd w => .next (s.setInp { s.inp with cmd := w })
  | .wrArg0 v => .next (s.setInp { s.inp with arg0 := v })
  | .wrArg1 v => .next (s.setInp { s.inp with arg1 := v })
  | .wrSin bytes => .next (s.setInp { s.inp with sin := overwrite s.inp.sin bytes })
  | .wrSinLen n => .next (s.setInp { s.inp with sinLen := n })
  | .wrWireIn bytes => .next (s.setInp { s.inp with wireIn := overwrite s.inp.wireIn bytes })
  | .wrWireInCount n => .next (s.setInp { s.inp with wireInCount := n })
  | .issue => runCommand s
  | .reset after => .next (s.resetEvent after)

/-- The 6-bit count the host writes for `n` bytes; a host with more than 63 bytes writes 63 (notes/assumptions/5.md). -/
def countOf (n : Nat) : Count := BitVec.ofNat 6 (min n 63)

/-- One line of the assembler syntax (R84). `op i` is `MNEMONIC` or `MNEMONIC.rx`, by the buffer `i` carries. -/
inductive AsmLine
  /-- `WR ARG0, v`. -/
  | wrArg0 (v : Word)
  /-- `WR ARG1, v`. -/
  | wrArg1 (v : Byte)
  /-- `WR SIN, [b0, ...]`. -/
  | wrSin (bytes : List Byte)
  /-- `WR WIRE_IN, [b0, ...]`. -/
  | wrWireIn (bytes : List Byte)
  /-- `MNEMONIC[.rx]`. -/
  | op (i : Instr)
  /-- `MNEMONIC[.rx] v`. -/
  | opV (i : Instr) (v : Word)
  /-- `MNEMONIC[.rx] v, p`. -/
  | opVP (i : Instr) (v : Word) (p : Byte)
  /-- `MNEMONIC[.rx] "text"`. -/
  | opText (i : Instr) (text : List Byte)
deriving DecidableEq, Repr

/-- The host actions of issuing one operation: its word in `CMD`, then the issue (R70, R84). -/
def issueActions (i : Instr) : List HostAction := [.wrCmd (encode i), .issue]

/-- The host actions of `WR SIN`: the bytes, and `SIN_LEN <- n` (R84). -/
def wrSinActions (bytes : List Byte) : List HostAction := [.wrSin bytes, .wrSinLen (countOf bytes.length)]

/-- The host actions of `WR WIRE_IN`: the bytes, and `WIRE_IN_COUNT <- n` (R84). -/
def wrWireInActions (bytes : List Byte) : List HostAction :=
  [.wrWireIn bytes, .wrWireInCount (countOf bytes.length)]

/-- The host actions one line stands for (R84). -/
def AsmLine.expand : AsmLine → List HostAction
  | .wrArg0 v => [.wrArg0 v]
  | .wrArg1 v => [.wrArg1 v]
  | .wrSin bytes => wrSinActions bytes
  | .wrWireIn bytes => wrWireInActions bytes
  | .op i => issueActions i
  | .opV i v => .wrArg0 v :: issueActions i
  | .opVP i v p => .wrArg0 v :: .wrArg1 p :: issueActions i
  | .opText i text => wrSinActions text ++ issueActions i

/-- The host actions of a program of lines (R25, R84). -/
def assemble (lines : List AsmLine) : List HostAction := lines.flatMap AsmLine.expand

/-- The host actions performed in turn, up to the first stop. -/
def hostActions : List HostAction → State → Out
  | [], s => .next s
  | a :: rest, s =>
    match hostAction a s with
    | .next t => hostActions rest t
    | .fault r => .fault r
    | .refused r => .refused r

end Sys2Proof.Machine
end

