-- ==== Sys2Proof/Machine/Step.lean ====
section
/-! DEFINITION. One step of the machine: the host's next action takes place, and where it is an issue the block performs
the whole command (spec/10_state.md R20, R25). An idle host leaves the block as it is (spec/60_exceptions.md R313). A
configuration that R57 or R76 calls ill-configured is refused. -/

namespace Sys2Proof.Machine

/-- One step: the next action of the host's script, performed on the state whose script is the rest. -/
def step (s : State) : Host.Outcome State Fault Refusal :=
  if s.cfg.wf then
    match s.script with
    | [] => .next s
    | a :: rest => hostAction a { s with script := rest }
  else .refused .illConfigured

/-- The state whose next step performs the command word `w`: the word stands in `CMD`, and the host's next action is to
issue it. The block has no program counter and fetches nothing (R25, R63; notes/assumptions/1.md). -/
def State.withFetchWord (s : State) (nbits w : Nat) : State :=
  { s with inp := { s.inp with cmd := BitVec.ofNat 16 (w % 2 ^ nbits) }, script := .issue :: s.script }

end Sys2Proof.Machine
end

