-- ==== Sys2Proof/Machine/Engine.lean ====
section
/-! DEFINITION. The procedures of a conforming host over the block's operations, spec/45_engine_boundary.md R270 to R279:
route, send, process, identity acquisition, the configuration request, presentation and begin. The block does not
contain them (spec/00_scope.md R4); they are what its operations are for. The transport, the callbacks and the bounded wait are
data of the node: which sends succeed, which frames arrive, and how many polls the wait lasts. -/

namespace Sys2Proof.Machine

/-- The host parameters the source does not give (R274, R278; spec/92_eei_decisions.md D54). -/
structure EngineParams where
  /-- `T_BOOT` for the wait of step 3: how many `process()` calls it has time for beyond the first. DESIGN CHOICE
  (notes/assumptions/8.md): R274 gives one `T_BOOT` and not whether its window starts afresh in step 6, so the two waits are
  two parameters. -/
  addressPolls : Nat
  /-- `T_BOOT` for the wait of step 6: how many `process()` calls it has time for beyond the first
  (notes/assumptions/8.md). -/
  finalPolls : Nat
  /-- `SENSOR_NODE`. -/
  sensorNode : Byte
  /-- `PRES_TYPE`. -/
  presType : Byte
  /-- `LIB_VERSION`. -/
  libVersion : Byte
  /-- `PRES_CLASS`. -/
  presClass : Byte
  /-- Whether a time callback is registered (R277). -/
  timeCallback : Bool
deriving DecidableEq, Repr

/-- What the host did at its own boundary, in order. -/
inductive EngineEvent
  /-- `transport.init(address, powerLevel, frequency)` (R274). -/
  | init (address : Byte) (power frequency : Nat)
  /-- `transport.sendAndWaitAck(destination, bytes, length)` and its outcome (R270). -/
  | sent (destination : Byte) (bytes : List Byte) (ok : Bool)
  /-- The application callback `onMessage(FB[1])` (R272). The log records the whole RX frame, which the application reads
  with `.rx` operations (R24; notes/assumptions/9.md). -/
  | message (frame : Frame)
  /-- The time callback (R277). -/
  | time (seconds : Word)
  /-- The device restarted on a reboot request (R275). -/
  | restarted
  /-- The end of bootstrap step 3: whether an address was obtained (R274). -/
  | bootstrapped (obtained : Bool)
deriving DecidableEq, Repr

/-- What a procedure returned. -/
inductive Report
  /-- No procedure has returned yet. -/
  | none
  /-- The send succeeded. -/
  | success
  /-- The send failed or was not attempted. -/
  | failure
  /-- `process()` handled a frame. -/
  | handled
  /-- `process()` handled none. -/
  | notHandled
  /-- The device restarts: the procedure does not return (R275). -/
  | restarting
deriving DecidableEq, Repr

/-- A node: the block and its host. -/
structure Node where
  /-- The block. -/
  dev : State
  /-- The host parameters. -/
  params : EngineParams
  /-- The outcomes of the sends to come; a send beyond them fails (notes/assumptions/9.md). -/
  outcomes : List Bool
  /-- The frames the transport will deliver, in order. -/
  inbox : List (List Byte)
  /-- What the host-written registers hold after a restart (R321 leaves it unspecified). -/
  afterRestart : Inputs
  /-- What the host did, oldest first. -/
  log : List EngineEvent
  /-- What the last procedure returned. -/
  report : Report
deriving DecidableEq, Repr

/-- What a procedure answers. -/
abbrev NodeOut := Host.Outcome Node Fault Refusal

/-- One procedure after another; a stop of the first is a stop of both. -/
def NodeOut.andThen (o : NodeOut) (f : Node → NodeOut) : NodeOut :=
  match o with
  | .next n => f n
  | .fault r => .fault r
  | .refused r => .refused r

/-- The host performs actions on the block. -/
def Node.act (n : Node) (actions : List HostAction) : NodeOut :=
  match hostActions actions n.dev with
  | .next s => .next { n with dev := s }
  | .fault r => .fault r
  | .refused r => .refused r

/-- The host runs assembler lines. -/
def Node.run (n : Node) (lines : List AsmLine) : NodeOut := n.act (assemble lines)

/-- A procedure returns. -/
def Node.reports (n : Node) (r : Report) : NodeOut := .next { n with report := r }

/-- The host does something at its own boundary. -/
def Node.note (n : Node) (e : EngineEvent) : Node := { n with log := n.log ++ [e] }

/-- The bytes on the wire port, `WIRE_OUT[0..WIRE_OUT_COUNT-1]`. -/
def State.wireFrame (s : State) : List Byte := s.wireOut.toList.take s.wireOutCount.toNat

/-- `transport.sendAndWaitAck` of the frame on the wire port, and the report of its outcome by `TX_RESULT` (R270). -/
def Node.transmit (n : Node) : NodeOut :=
  let ok := n.outcomes.headD false
  let m := Node.note { n with outcomes := n.outcomes.tail } (.sent n.dev.wireOutDest n.dev.wireFrame ok)
  (m.run [.opV .txResult (if ok then 1 else 0)]).andThen fun k => k.reports (if ok then .success else .failure)

/-- `ROUTE()` for the frame in `FB[0]`, with what is done where an address must be acquired first (R270). -/
def Node.routeWith (needId : Node → NodeOut) (n : Node) : NodeOut :=
  (n.run [.op .idTxCheck]).andThen fun n =>
    if n.dev.res = 1 then needId n
    else if n.dev.res = 2 then n.reports .failure
    else
      (n.run [.opV (.setVersion .tx) (protocolVersion.setWidth 32), .op .wireEncode]).andThen fun n =>
        if n.dev.status = Status.ok.code then n.transmit else n.reports .failure

/-- The lines that build the identity request in `FB[0]` (R279). -/
def idRequestLines (c : Config) (p : EngineParams) : List AsmLine :=
  [.opV (.setSender .tx) (autoAddress.setWidth 32), .opV (.setDest .tx) (gatewayAddress.setWidth 32),
    .opV (.setCommand .tx) (Command.internal.code.setWidth 32), .opV (.setReqack .tx) 0, .opV (.setAck .tx) 0,
    .opV (.setType .tx) (c.iIdRequest.setWidth 32), .opV (.setSensor .tx) (p.sensorNode.setWidth 32),
    .opText (.setString .tx) []]

/-- `ACQUIRE_ID()` (R279). Its own `ROUTE()` passes the gate, so it never acquires again; were the gate to refuse, it would
report failure (notes/assumptions/10.md). -/
def Node.acquireId (n : Node) : NodeOut :=
  (n.run (idRequestLines n.dev.cfg n.params)).andThen (Node.routeWith fun m => m.reports .failure)

/-- `ROUTE()`: a send that needs an address triggers the identity request and reports failure (R270). -/
def Node.route (n : Node) : NodeOut := n.routeWith fun m => m.acquireId.andThen fun k => k.reports .failure

/-- The sender field becomes the local address (R271). -/
def Node.stampSender (n : Node) : NodeOut :=
  (n.run [.op .getNodeId]).andThen fun m => m.run [.opV (.setSender .tx) m.dev.res]

/-- `SEND(r)` for an application frame built in `FB[0]` (R271). -/
def Node.send (requestAck : Bool) (n : Node) : NodeOut :=
  (n.stampSender.andThen fun m =>
    m.run [.opV (.setCommand .tx) (Command.set.code.setWidth 32),
      .opV (.setReqack .tx) (if requestAck then 1 else 0)]).andThen Node.route

/-- `TIME_RESPONSE()` (R277). -/
def Node.timeResponse (n : Node) : NodeOut :=
  (n.run [.op (.getUlong32 .rx)]).andThen fun m =>
    if m.dev.status = Status.ok.code ∧ m.params.timeCallback then .next (m.note (.time m.dev.res)) else .next m

/-- The dispatch of a frame of class `k`, after its acknowledgment (R272, R275). -/
def Node.dispatch (k : BitVec 4) (n : Node) : NodeOut :=
  if k = RxClass.app.code then (n.note (.message n.dev.rx)).reports .handled
  else if k = RxClass.intReboot.code then
    (n.act [.reset n.afterRestart]).andThen fun m => (m.note .restarted).reports .restarting
  else if k = RxClass.intIdResponse.code then (n.run [.op .idAdoptRx]).andThen fun m => m.reports .handled
  else if k = RxClass.intConfig.code then (n.run [.op .cfgUpdateRx]).andThen fun m => m.reports .handled
  else if k = RxClass.intTime.code then n.timeResponse.andThen fun m => m.reports .handled
  else n.reports .notHandled

/-- The acknowledgment of the RX frame where it was asked for; its outcome is ignored (R272, R273). -/
def Node.acknowledge (needed : Bool) (n : Node) : NodeOut :=
  if needed then (n.run [.op .buildAck]).andThen Node.route else .next n

/-- `PROCESS()` of one received frame (R272). -/
def Node.receive (bytes : List Byte) (n : Node) : NodeOut :=
  (n.run [.wrWireIn bytes, .op .wireDecode]).andThen fun n =>
    if n.dev.status = Status.malformed.code then n.reports .notHandled
    else
      (n.run [.op .rxClassify]).andThen fun n =>
        let k := n.dev.res.extractLsb' 0 4
        let ackNeeded := n.dev.res.getLsbD 4
        if k = RxClass.dropVersion.code ∨ k = RxClass.notForMe.code then n.reports .notHandled
        else (n.acknowledge ackNeeded).andThen (Node.dispatch k)

/-- `PROCESS()` (R272). -/
def Node.process (n : Node) : NodeOut :=
  match n.inbox with
  | [] => n.reports .notHandled
  | bytes :: rest => Node.receive bytes { n with inbox := rest }

/-- The configuration request in `FB[0]` (R278). -/
def Node.configRequest (n : Node) : NodeOut :=
  n.stampSender.andThen fun m =>
    m.run [.opV (.setDest .tx) (gatewayAddress.setWidth 32), .opV (.setCommand .tx) (Command.internal.code.setWidth 32),
      .opV (.setReqack .tx) 0, .opV (.setAck .tx) 0, .opV (.setType .tx) (m.dev.cfg.iConfig.setWidth 32),
      .opV (.setSensor .tx) (m.params.sensorNode.setWidth 32), .opText (.setString .tx) []]

/-- The presentation frame in `FB[0]` (R278). -/
def Node.presentation (n : Node) : NodeOut :=
  n.stampSender.andThen fun m =>
    m.run [.opV (.setDest .tx) (gatewayAddress.setWidth 32),
      .opV (.setCommand .tx) (Command.presentation.code.setWidth 32), .opV (.setType .tx) (m.params.presType.setWidth 32),
      .opV (.setSensor .tx) (m.params.sensorNode.setWidth 32),
      .opVP (.setPresentation .tx) (m.params.libVersion.setWidth 32) m.params.presClass]

/-- The rest of a procedure, unless the device restarts. -/
def NodeOut.unlessRestarting (o : NodeOut) (f : Node → NodeOut) : NodeOut :=
  o.andThen fun n => if n.report = .restarting then .next n else f n

/-- `repeat PROCESS() until T_BOOT elapsed`: one call, and as many more as there is time for (R274, step 6). -/
def Node.poll : Nat → Node → NodeOut
  | 0, n => n.process
  | k + 1, n => n.process.unlessRestarting (Node.poll k)

/-- `ID_STATE` says that the wait for an address is over: `NODE_ID != AUTO or HALTED = 1` (R274; R34). -/
def addressSettled (idState : Word) : Bool := idState == Lifecycle.assigned.code || idState == Lifecycle.halted.code

/-- `repeat PROCESS() until NODE_ID != AUTO or HALTED = 1 or T_BOOT elapsed` (R274, step 3). The host reads the condition with
`GET_ID_STATE`, the one operation that shows `HALTED` (R24, R312; notes/assumptions/10.md). -/
def Node.awaitAddress : Nat → Node → NodeOut
  | 0, n => n.process
  | k + 1, n =>
    n.process.unlessRestarting fun m =>
      (m.run [.op .getIdState]).andThen fun q => if addressSettled q.dev.res then .next q else Node.awaitAddress k q

/-- Step 3 of `begin`, where `RES` holds the address that `GET_NODE_ID` has answered: install the static address, or acquire
one and wait for it (R274). -/
def Node.obtainAddress (static? : Option Byte) (n : Node) : NodeOut :=
  match static? with
  | some a => n.run [.opV .idSetStatic (a.setWidth 32)]
  | none =>
    if lowByte n.dev.res = autoAddress then n.acquireId.andThen fun m => m.awaitAddress m.params.addressPolls else .next n

/-- Steps 1 to 5 of `begin`: load, initialise the transport, obtain an address, and send the presentation and the
configuration request. The host reads `NODE_ID` with `GET_NODE_ID` (R24; notes/assumptions/10.md). -/
def Node.announce (static? : Option Byte) (power frequency : Nat) (n : Node) : NodeOut :=
  let loaded := (n.run [.op .idLoad, .op .cfgLoad, .op .getNodeId]).andThen fun m =>
    (m.note (.init (lowByte m.dev.res) power frequency)).reports .none
  let addressed := (loaded.andThen (Node.obtainAddress static?)).unlessRestarting fun m =>
    (m.run [.op .getNodeId]).andThen fun q => .next (q.note (.bootstrapped (lowByte q.dev.res ≠ autoAddress)))
  let presented := addressed.unlessRestarting fun m => m.presentation.andThen Node.route
  presented.unlessRestarting fun m => m.configRequest.andThen Node.route

/-- `begin(staticAddress?, powerLevel, frequency)` (R274): steps 1 to 5, then the wait of step 6. -/
def Node.begin (static? : Option Byte) (power frequency : Nat) (n : Node) : NodeOut :=
  (n.announce static? power frequency).unlessRestarting fun m => m.poll m.params.finalPolls

end Sys2Proof.Machine
end

