-- ==== Sys2Proof/Safety.lean ====
section
/-! DEFINITION. What counts as a safe machine, in the terms the statements use: the invariant of the block's state
(spec/10_state.md R22, R28, R33, R35; spec/20_memory.md R57), and a host that does not reset (spec/44_identity.md R251). -/

namespace Sys2Proof.Machine

/-- What every step keeps. -/
structure State.Inv (s : State) : Prop where
  /-- `STATUS` holds an assigned code: 0x0B to 0xFF are never written (R28). -/
  statusAssigned : s.status.toNat ≤ 0x0A
  /-- `HALTED = 1` implies `NODE_ID = AUTO` and `REQ_PENDING = 0` (R35). -/
  haltedUnassigned : s.halted = true → s.nodeId = autoAddress ∧ s.reqPending = false
  /-- The requesting stage belongs to an unassigned node (R33). -/
  pendingUnassigned : s.reqPending = true → s.nodeId = autoAddress
  /-- Storage has its canonical form. -/
  storageCanonical : s.storage.wf = true
  /-- Storage lists only bytes that exist (R39). -/
  storageInside : ∀ c ∈ s.storage, c.1 < s.cfg.storageSize
  /-- Only the two records were ever written (R57). -/
  recordsOnly : ∀ c ∈ s.storageWrites, c.1 = s.cfg.eeNodeId ∨ c.1 = s.cfg.eeUnit
  /-- `SOUT_LEN` is at most 50 (R22). -/
  soutFits : s.soutLen.toNat ≤ 50
  /-- Every byte of `SOUT` at or beyond `SOUT_LEN` is 0 (R22). -/
  soutZero : ∀ (k : Nat) (h : k < 50), s.soutLen.toNat ≤ k → s.sout[k] = 0
  /-- The wire port offers nothing, or a whole frame: the count its length field announces, at most 32, with the
  destination its header names and zeros beyond it (R79, R212). -/
  wireOutWhole : s.wireOutCount = 0 ∨
    (s.wireOutCount.toNat = 7 + s.wireOut[3].toNat / 8 ∧ s.wireOutCount.toNat ≤ 32 ∧ s.wireOutDest = s.wireOut[2] ∧
      ∀ (k : Nat) (h : k < 32), s.wireOutCount.toNat ≤ k → s.wireOut[k] = 0)

/-- The host actions that are no reset. -/
def HostAction.keepsPower : HostAction → Bool
  | .reset _ => false
  | _ => true

/-- Storage after the writes of a history, oldest first: the value the byte at `a` has, where it began as `v`. -/
def replayed (writes : List Host.Cell) (a : Nat) (v : Byte) : Byte :=
  writes.foldl (fun acc c => if c.1 = a then c.2 else acc) v

/-- A log entry that hands a frame to the transport. -/
def EngineEvent.isSend : EngineEvent → Bool
  | .sent _ _ _ => true
  | _ => false

/-- A log entry that hands a frame to the application. -/
def EngineEvent.isMessage : EngineEvent → Bool
  | .message _ => true
  | _ => false

end Sys2Proof.Machine
end

