-- ==== Sys2Proof/Certificates/Slice0/Obligations.lean ====
section
/-! DEFINITION. The statements for the provers. The predicates before them say in numbers what the rules say in bits and
slices, so that a statement does not repeat the model's own definitions. -/

namespace Sys2Proof.Spec

open Sys2Proof.Machine

/-- Frame `g` is `f` with byte `i` holding `v` modulo 256. -/
def WritesByte (f g : Frame) (i v : Nat) : Prop :=
  ∀ (j : Nat) (h : j < 33), g[j] = if j = i then BitVec.ofNat 8 v else f[j]

/-- Operation `i` has opcode `op`: its word is `BUF << 8 | OP` (R80, R84). -/
abbrev Coded (i : Instr) (op : Nat) : Prop := encode i = BitVec.ofNat 16 (op + if i.buf? = some .rx then 256 else 0)

/-- A header setter completes with `STATUS = OK`, byte `k` of frame `b` holding `v`, and nothing else changed. -/
def SetsByte (i : Instr) (op : Nat) (b : Buf) (k v : Nat) (s : State) : Prop :=
  Coded i op ∧ ∃ g : Frame, exec i s = .next { s.setFb b g with status := 0 } ∧ WritesByte (s.fb b) g k v

/-- A header read completes with `RES = v`, `STATUS = OK`, and nothing else changed. -/
def Answers (i : Instr) (v : Nat) (s : State) : Prop :=
  exec i s = .next { s with res := BitVec.ofNat 32 v, status := 0 }

/-- The read of opcode `op` completes with `RES = v`, `STATUS = OK`, and nothing else changed. -/
def Reads (i : Instr) (op v : Nat) (s : State) : Prop := Coded i op ∧ Answers i v s

/-- The `n` bytes of `v`, least significant first. -/
def leBytes (n v : Nat) : List Byte := (List.range n).map fun k => BitVec.ofNat 8 (v / 256 ^ k)

/-- The number the first `n` payload bytes hold, least significant first. -/
def leValue (f : Frame) (n : Nat) : Nat := (List.range n).foldr (fun k acc => (f.byte (7 + k)).toNat + 256 * acc) 0

/-- The two's-complement reading of a `w`-bit number. -/
def signedValue (w v : Nat) : Int := if v < 2 ^ (w - 1) then (v : Int) else (v : Int) - 2 ^ w

/-- The payload bytes `PL[0..k-1]`. -/
def payloadBytes (f : Frame) (k : Nat) : List Byte := (List.range k).map fun j => f.byte (7 + j)

/-- Frame `g` is `f` after `SETPAYLOAD` of these bytes under this tag: the length and tag fields, the bytes, the terminator,
and nothing else. -/
def WritesPayload (f g : Frame) (tag : Nat) (bytes : List Byte) : Prop :=
  ∀ (j : Nat) (h : j < 33), g[j] =
    if j = 3 then BitVec.ofNat 8 (bytes.length * 8 + f[3].toNat % 8)
    else if j = 4 then BitVec.ofNat 8 (tag * 32 + f[4].toNat % 32)
    else if j < 7 then f[j]
    else if j - 7 < bytes.length then bytes.getD (j - 7) 0
    else if j - 7 = bytes.length then 0
    else f[j]

/-- A payload setter completes with this status, the payload stored in frame `b`, and nothing else changed. -/
def SetsPayload (i : Instr) (op : Nat) (b : Buf) (tag : Nat) (bytes : List Byte) (st : Byte) (s : State) : Prop :=
  Coded i op ∧ ∃ g : Frame, exec i s = .next { s.setFb b g with status := st } ∧ WritesPayload (s.fb b) g tag bytes

/-- The tag of a frame is `tag` and its length field is at least `size`. -/
abbrev TagAndLength (f : Frame) (tag size : Nat) : Prop := f[4].toNat / 32 = tag ∧ size ≤ f[3].toNat / 8

/-- A scalar getter completes: the value where tag and length fit, else zero and `TYPE_MISMATCH`. -/
def AnswersTyped (i : Instr) (op : Nat) (b : Buf) (tag size : Nat) (v : Word) (s : State) : Prop :=
  Coded i op ∧ exec i s = .next (if TagAndLength (s.fb b) tag size then { s with res := v, status := 0 }
    else { s with res := 0, status := 1 })

/-- `t` is `s` with `text` on `SOUT`, zeros beyond it, and this status. -/
def HoldsText (s t : State) (text : List Byte) (st : Byte) : Prop :=
  t = { s with sout := t.sout, soutLen := BitVec.ofNat 6 text.length, status := st } ∧
    ∀ (j : Nat) (h : j < 50), t.sout[j] = text.getD j 0

/-- `t` is `s` with `text` delivered, or with an empty `SOUT` and `OUT_OVERFLOW` where it is longer than 50. -/
def DeliversText (s t : State) (text : List Byte) (st : Byte) : Prop :=
  if 50 < text.length then HoldsText s t [] 5 else HoldsText s t text st

/-- An ASCII decimal digit. -/
abbrev IsDigit (c : Byte) : Prop := 0x30 ≤ c.toNat ∧ c.toNat ≤ 0x39

/-- The number a decimal digit string denotes. -/
def decimalValue (text : List Byte) : Nat := text.foldl (fun acc c => 10 * acc + (c.toNat - 0x30)) 0

/-- One of the 22 hex characters. -/
abbrev IsHex (c : Byte) : Prop :=
  (0x30 ≤ c.toNat ∧ c.toNat ≤ 0x39) ∨ (0x41 ≤ c.toNat ∧ c.toNat ≤ 0x46) ∨ (0x61 ≤ c.toNat ∧ c.toNat ≤ 0x66)

/-- The value of a hex character. -/
def hexDigitValue (c : Byte) : Nat :=
  if c.toNat ≤ 0x39 then c.toNat - 0x30 else if c.toNat ≤ 0x46 then c.toNat - 0x37 else c.toNat - 0x57

/-- The uppercase hex character of a value below 16. -/
def hexCharOf (d : Nat) : Byte := BitVec.ofNat 8 (if d ≤ 9 then 0x30 + d else 0x37 + d)

/-- The biased exponent field of a binary32 pattern. -/
def exponentField (w : Word) : Nat := w.toNat / 2 ^ 23 % 256

/-- The fraction field of a binary32 pattern. -/
def fractionField (w : Word) : Nat := w.toNat % 2 ^ 23

/-- The magnitude of a finite binary32 number (IEEE 754). -/
def magnitude (w : Word) : ℚ :=
  if exponentField w = 0 then (fractionField w : ℚ) / 2 ^ 149
  else (1 + (fractionField w : ℚ) / 2 ^ 23) * 2 ^ exponentField w / 2 ^ 127

/-- An adoption of `a` on state `s` gives `t`: refused while halted, refused while assigned, the terminal halt on `AUTO`, or
the address taken, with its storage byte written where it differs (R248). -/
def Adopts (s : State) (a : Byte) (t : State) : Prop :=
  if s.halted = true then t = { s with status := 8 }
  else if s.nodeId ≠ 255 then t = { s with status := 7 }
  else if a = 255 then t = { s with halted := true, reqPending := false, status := 8 }
  else
    t = { s with
        nodeId := a, reqPending := false, storage := t.storage,
        storageWrites := s.storageWrites ++ (if s.storage.read s.cfg.eeNodeId = a then [] else [(s.cfg.eeNodeId, a)]),
        status := 0 } ∧
      ∀ x, t.storage.read x = if x = s.cfg.eeNodeId then a else s.storage.read x

/-- What an update of the unit preference is compared with (R249). -/
def comparedUnit (s : State) : Byte :=
  if s.cfg.cmpSource = .storage then s.storage.read s.cfg.eeUnit else s.unitPref

/-- An update of the unit preference to `v` on state `s` gives `t` (R249). -/
def Updates (s : State) (v : Byte) (t : State) : Prop :=
  t = { s with
      unitPref := v, storage := t.storage,
      storageWrites := s.storageWrites ++ (if comparedUnit s = v then [] else [(s.cfg.eeUnit, v)]), status := 0 } ∧
    ∀ x, t.storage.read x = if x = s.cfg.eeUnit ∧ comparedUnit s ≠ v then v else s.storage.read x

/-- `IS_IDREQ` of a frame, in numbers (R245). -/
abbrev IsIdRequest (f : Frame) (c : Config) : Prop := f[4].toNat % 8 = 3 ∧ f[5] = c.iIdRequest

/-- The frame an operation may write (R27). -/
def frameWritten : Instr → Option Buf
  | .setLast b | .setSender b | .setDest b | .setVersion b | .setSigned b | .setLength b | .setCommand b | .setReqack b
  | .setAck b | .setPtype b | .setType b | .setSensor b => some b
  | .setString b | .setByte b | .setInt16 b | .setUint16 b | .setLong32 b | .setUlong32 b | .setCustom b
  | .setFloat32 b | .setPresentation b | .loadHex b => some b
  | .wireDecode => some .rx
  | .frameCopy | .buildAck => some .tx
  | _ => none

/-- The operations of the identity register file (spec/44_identity.md). -/
def identityOps : List Instr :=
  [.idLoad, .cfgLoad, .idAdopt, .idSetStatic, .cfgUpdate, .idTxCheck, .txResult, .getNodeId, .getUnitPref, .getFailCnt,
    .getIdState, .rxClassify, .idAdoptRx, .cfgUpdateRx]

/-- The payload setters of buffer `b`, each with its tag, and its length where the tag fixes it (R75, R150). -/
def payloadSetters (b : Buf) : List (Instr × Nat × Option Nat) :=
  [(.setString b, 0, none), (.setByte b, 1, some 1), (.setInt16 b, 2, some 2), (.setUint16 b, 3, some 2),
    (.setLong32 b, 4, some 4), (.setUlong32 b, 5, some 4), (.setCustom b, 6, none), (.setFloat32 b, 7, some 5),
    (.setPresentation b, 6, some 2)]

/-- The setters of header byte 3 with values for them. -/
def byte3Setters (b : Buf) (v sg n : Nat) : List AsmLine :=
  [.opV (.setVersion b) (BitVec.ofNat 32 v), .opV (.setSigned b) (BitVec.ofNat 32 sg), .opV (.setLength b) (BitVec.ofNat 32 n)]

/-- The setters of header byte 4 with values for them. -/
def byte4Setters (b : Buf) (c r a p : Nat) : List AsmLine :=
  [.opV (.setCommand b) (BitVec.ofNat 32 c), .opV (.setReqack b) (BitVec.ofNat 32 r), .opV (.setAck b) (BitVec.ofNat 32 a),
    .opV (.setPtype b) (BitVec.ofNat 32 p)]

/-- A received byte sequence that is a whole frame for the node `a` of this version (R211, R242). -/
structure WholeFrameFor (a : Byte) (bytes : List Byte) : Prop where
  long : 7 ≤ bytes.length
  short : bytes.length ≤ 32
  fits : (bytes.getD 3 0).toNat / 8 ≤ 25
  announced : 7 + (bytes.getD 3 0).toNat / 8 ≤ bytes.length
  version : (bytes.getD 3 0).toNat % 4 = 2
  addressed : bytes.getD 2 0 = a

/-- The wire bytes of the acknowledgment by node `a` of a received frame (R214). -/
def ackBytes (a : Byte) (bytes : List Byte) : List Byte :=
  (List.range (7 + (bytes.getD 3 0).toNat / 8)).map fun j =>
    if j = 1 then a
    else if j = 2 then bytes.getD 1 0
    else if j = 4 then BitVec.ofNat 8 ((bytes.getD 4 0).toNat / 32 * 32 + 16 + (bytes.getD 4 0).toNat % 8)
    else bytes.getD j 0

/-- The wire bytes of a frame with the version stamped 2 (R270). -/
def stampedBytes (f : Frame) : List Byte :=
  (List.range (7 + f[3].toNat / 8)).map fun j => if j = 3 then BitVec.ofNat 8 (f[3].toNat / 4 * 4 + 2) else f.byte j

/-- The wire bytes of the identity request a node builds over its TX frame `f` (R279). -/
def idRequestBytes (f : Frame) (c : Config) (p : EngineParams) : List Byte :=
  [f[0], 255, 0, BitVec.ofNat 8 (f[3].toNat % 8 / 4 * 4 + 2), 3, c.iIdRequest, p.sensorNode]

/-- The wire bytes of the presentation frame that the node `a` builds over its TX frame `f`, the version stamped 2 (R270,
R278). -/
def presentationBytes (f : Frame) (a : Byte) (p : EngineParams) : List Byte :=
  [f[0], a, 0, BitVec.ofNat 8 (2 * 8 + f[3].toNat % 8 / 4 * 4 + 2), BitVec.ofNat 8 (6 * 32 + f[4].toNat % 32 / 8 * 8),
    p.presType, p.sensorNode, p.libVersion, p.presClass]

/-- The wire bytes of the configuration request that the node `a` builds over its TX frame `f`, the version stamped 2 (R270,
R278). -/
def configRequestBytes (f : Frame) (a : Byte) (c : Config) (p : EngineParams) : List Byte :=
  [f[0], a, 0, BitVec.ofNat 8 (f[3].toNat % 8 / 4 * 4 + 2), 3, c.iConfig, p.sensorNode]

end Sys2Proof.Spec

open Sys2Proof
open Sys2Proof.Machine
open Sys2Proof.Spec

/-- The decoder and the encoder agree (R81): every operation's word is legal and decodes to it, so no operand of a command
word is dropped; a word decodes to an operation exactly where it passes the three checks, and that operation's word is
then the word itself; a word that fails is rejected by the first check it fails. -/
def Obligations.DecodeAndEncodeAgree : Prop :=
  (∀ i : Instr, legalWord (encode i) = true ∧ decode (encode i) = .ok i) ∧
  ∀ w : CmdWord,
    (∀ i, decode w = .ok i ↔ legalWord w = true ∧ encode i = w) ∧
    (decode w = .error .reservedBits ↔ reservedClear w = false) ∧
    (decode w = .error .unassignedOpcode ↔ reservedClear w = true ∧ opcodeAssigned w = false) ∧
    (decode w = .error .bufOnFixedOpcode ↔
      reservedClear w = true ∧ opcodeAssigned w = true ∧ bufferAllowed w = false)

/-- The examples of R84 and words of each family of R80's table decode to what they stand for. -/
def Obligations.SpecWordsDecode : Prop :=
  decode 0x0000 = .ok .nop ∧ decode 0x0101 = .ok (.getLast .rx) ∧ decode 0x001C = .ok (.setSensor .tx) ∧
    decode 0x0022 = .ok (.setInt16 .tx) ∧ decode 0x0122 = .ok (.setInt16 .rx) ∧ decode 0x013A = .ok (.getString .rx) ∧
    decode 0x0041 = .ok .wireEncode ∧ decode 0x005D = .ok .cfgUpdateRx ∧
    decode 0x0100 = .error .bufOnFixedOpcode ∧ decode 0x0036 = .error .unassignedOpcode ∧
    decode 0x8001 = .error .reservedBits

/-- R82: the unassigned opcodes number 192, the illegal words are those R81 fails, and an illegal command writes
`STATUS <- ILLEGAL_OP` and changes nothing else. -/
def Obligations.IllegalCommandOnlySetsStatus : Prop :=
  (List.range 256).countP unassignedOpcode = 192 ∧
    (∀ w : CmdWord, legalWord w = false ↔ ∃ e, decode w = .error e) ∧
    ∀ s : State, legalWord s.inp.cmd = false → runCommand s = .next { s with status := 0x06 }

/-- A step at which the host issues the word in `CMD` runs the decoded operation on the state with that action taken off the
script (R20, R63), and a word placed where the step fetches is what the next step runs. The script is the model's own field
(notes/assumptions/1.md). -/
def Obligations.StepRunsTheIssuedCommand : Prop :=
  (∀ (s : State) (i : Instr) (rest : List HostAction), s.cfg.wf = true → s.script = .issue :: rest →
    decode s.inp.cmd = .ok i → step s = exec i { s with script := rest }) ∧
  (∀ (s : State) (e : DecodeError) (rest : List HostAction), s.cfg.wf = true → s.script = .issue :: rest →
    decode s.inp.cmd = .error e → step s = .next { s with script := rest, status := 0x06 }) ∧
  (∀ (s : State) (i : Instr), s.cfg.wf = true →
    step (s.withFetchWord 16 (encode i).toNat) = exec i { s with inp := { s.inp with cmd := encode i } })

/-- R24: what the host writes is its own registers; the block is otherwise as it was. An idle host changes nothing. -/
def Obligations.HostWritesOnlyItsRegisters : Prop :=
  ∀ (s : State) (rest : List HostAction), s.cfg.wf = true →
    (s.script = [] → step s = .next s) ∧
    (∀ w, s.script = .wrCmd w :: rest → step s = .next { s with script := rest, inp := { s.inp with cmd := w } }) ∧
    (∀ v, s.script = .wrArg0 v :: rest → step s = .next { s with script := rest, inp := { s.inp with arg0 := v } }) ∧
    (∀ v, s.script = .wrArg1 v :: rest → step s = .next { s with script := rest, inp := { s.inp with arg1 := v } }) ∧
    (∀ n, s.script = .wrSinLen n :: rest → step s = .next { s with script := rest, inp := { s.inp with sinLen := n } }) ∧
    (∀ n, s.script = .wrWireInCount n :: rest →
      step s = .next { s with script := rest, inp := { s.inp with wireInCount := n } }) ∧
    (∀ bytes, s.script = .wrSin bytes :: rest → ∃ p : Vector Byte 50,
      step s = .next { s with script := rest, inp := { s.inp with sin := p } } ∧
        ∀ (j : Nat) (h : j < 50), p[j] = if j < bytes.length then bytes.getD j 0 else s.inp.sin[j]) ∧
    (∀ bytes, s.script = .wrWireIn bytes :: rest → ∃ p : Vector Byte 32,
      step s = .next { s with script := rest, inp := { s.inp with wireIn := p } } ∧
        ∀ (j : Nat) (h : j < 32), p[j] = if j < bytes.length then bytes.getD j 0 else s.inp.wireIn[j])

/-- R321, R322: reset gives every register and both frame buffers the values of R37, keeps storage and its history, and
leaves the host-written registers at whatever the action carries (the spec leaves them unspecified; the action is the
model's, notes/assumptions/1.md). A load after it gives the stored address: a halt does not survive reset. -/
def Obligations.ResetEventRestoresRegistersKeepsStorage : Prop :=
  ∀ (s : State) (after : Inputs) (rest : List HostAction), s.cfg.wf = true → s.script = .reset after :: rest →
    ∃ t : State, step s = .next t ∧
      (∀ (j : Nat) (h : j < 33), t.tx[j] = 0 ∧ t.rx[j] = 0) ∧ t.nodeId = 255 ∧ t.unitPref = 255 ∧ t.failCnt = 0 ∧
      t.halted = false ∧ t.reqPending = false ∧ t.res = 0 ∧ (∀ (j : Nat) (h : j < 50), t.sout[j] = 0) ∧ t.soutLen = 0 ∧
      t.status = 0 ∧ (∀ (j : Nat) (h : j < 32), t.wireOut[j] = 0) ∧ t.wireOutCount = 0 ∧ t.wireOutDest = 0 ∧
      t.storage = s.storage ∧ t.storageWrites = s.storageWrites ∧ t.cfg = s.cfg ∧ t.inp = after ∧ t.script = rest ∧
      ∃ u, exec .idLoad t = .next u ∧ u.nodeId = s.storage.read s.cfg.eeNodeId

/-- R37: the values the spec gives the state after reset. That storage is then erased and reads 0xFF is the model's choice of
its first contents (notes/assumptions/6.md, after D39). -/
def Obligations.ResetStateHoldsTheSpecValues : Prop :=
  State.reset.tx = Vector.replicate 33 0 ∧ State.reset.rx = Vector.replicate 33 0 ∧ State.reset.nodeId = 255 ∧
    State.reset.unitPref = 255 ∧ State.reset.failCnt = 0 ∧ State.reset.halted = false ∧ State.reset.reqPending = false ∧
    State.reset.res = 0 ∧ State.reset.sout = Vector.replicate 50 0 ∧ State.reset.soutLen = 0 ∧ State.reset.status = 0 ∧
    State.reset.wireOut = Vector.replicate 32 0 ∧ State.reset.wireOutCount = 0 ∧ State.reset.wireOutDest = 0 ∧
    State.reset.storageWrites = [] ∧ (∀ a, State.reset.storage.read a = 0xFF) ∧ State.reset.idState = .unassigned

/-- R57: a configuration whose offsets coincide or lie outside storage is refused, whatever the host does; so is one whose
message codes are not pairwise distinct (R76) or whose storage is smaller than 2 (R9), which is the model's choice
(notes/assumptions/7.md). -/
def Obligations.IllConfiguredMachineIsRefused : Prop :=
  ∀ s : State,
    (s.cfg.eeNodeId = s.cfg.eeUnit ∨ s.cfg.storageSize ≤ s.cfg.eeNodeId ∨ s.cfg.storageSize ≤ s.cfg.eeUnit ∨
      s.cfg.storageSize < 2 ∨
      ¬ [s.cfg.iTime, s.cfg.iIdRequest, s.cfg.iIdResponse, s.cfg.iConfig, s.cfg.iReboot].Nodup) →
    step s = .refused .illConfigured

/-- R300: every operation and every step of a well-configured machine completes, with an assigned code in `STATUS` after an
operation. -/
def Obligations.EveryOperationCompletes : Prop :=
  (∀ (i : Instr) (s : State), s.cfg.wf = true → ∃ t, exec i s = .next t ∧ t.status.toNat ≤ 0x0A) ∧
    ∀ s : State, s.cfg.wf = true → ∃ t, step s = .next t

/-- Every step keeps the invariant: the halt implies an unassigned node (R35), `STATUS` holds an assigned code (R28), `SOUT`
is zero beyond its length (R22), the wire port offers nothing or a whole frame, storage is canonical and inside its size, and
only the two records are ever written (R57). -/
def Obligations.StepKeepsInvariant : Prop := ∀ s t : State, s.Inv → step s = .next t → t.Inv

/-- The state after reset meets the invariant. -/
def Obligations.ResetMeetsInvariant : Prop := State.reset.Inv

/-- R101, R102, R103, R111, R112: the getters of the whole header bytes. -/
def Obligations.HeaderByteGettersAnswerTheirByte : Prop :=
  ∀ (b : Buf) (s : State),
    Reads (.getLast b) 0x01 (s.fb b)[0].toNat s ∧ Reads (.getSender b) 0x02 (s.fb b)[1].toNat s ∧
    Reads (.getDest b) 0x03 (s.fb b)[2].toNat s ∧ Reads (.getType b) 0x0B (s.fb b)[5].toNat s ∧
    Reads (.getSensor b) 0x0C (s.fb b)[6].toNat s

/-- R104 to R110: the getters of the packed fields answer their bits of header bytes 3 and 4. -/
def Obligations.HeaderBitfieldGettersAnswerTheirBits : Prop :=
  ∀ (b : Buf) (s : State),
    Reads (.getVersion b) 0x04 ((s.fb b)[3].toNat % 4) s ∧ Reads (.getSigned b) 0x05 ((s.fb b)[3].toNat / 4 % 2) s ∧
    Reads (.getLength b) 0x06 ((s.fb b)[3].toNat / 8) s ∧ Reads (.getCommand b) 0x07 ((s.fb b)[4].toNat % 8) s ∧
    Reads (.getReqack b) 0x08 ((s.fb b)[4].toNat / 8 % 2) s ∧ Reads (.getAck b) 0x09 ((s.fb b)[4].toNat / 16 % 2) s ∧
    Reads (.getPtype b) 0x0A ((s.fb b)[4].toNat / 32) s

/-- R113, R114, R115, R123, R124: the setters of the whole header bytes write `ARG0[7:0]` and nothing else. -/
def Obligations.HeaderByteSettersWriteOneByte : Prop :=
  ∀ (b : Buf) (s : State),
    SetsByte (.setLast b) 0x11 b 0 (s.inp.arg0.toNat % 256) s ∧ SetsByte (.setSender b) 0x12 b 1 (s.inp.arg0.toNat % 256) s ∧
    SetsByte (.setDest b) 0x13 b 2 (s.inp.arg0.toNat % 256) s ∧ SetsByte (.setType b) 0x1B b 5 (s.inp.arg0.toNat % 256) s ∧
    SetsByte (.setSensor b) 0x1C b 6 (s.inp.arg0.toNat % 256) s

/-- R116 to R122: each setter of a packed field replaces the field's bits by the low bits of `ARG0` and keeps the other bits
of the byte and everything else. -/
def Obligations.HeaderBitfieldSettersWriteOnlyTheirBits : Prop :=
  ∀ (b : Buf) (s : State),
    let x := (s.fb b)[3].toNat
    let y := (s.fb b)[4].toNat
    let a := s.inp.arg0.toNat
    SetsByte (.setVersion b) 0x14 b 3 (x / 4 * 4 + a % 4) s ∧
    SetsByte (.setSigned b) 0x15 b 3 (x / 8 * 8 + a % 2 * 4 + x % 4) s ∧
    SetsByte (.setLength b) 0x16 b 3 (a % 32 * 8 + x % 8) s ∧
    SetsByte (.setCommand b) 0x17 b 4 (y / 8 * 8 + a % 8) s ∧
    SetsByte (.setReqack b) 0x18 b 4 (y / 16 * 16 + a % 2 * 8 + y % 8) s ∧
    SetsByte (.setAck b) 0x19 b 4 (y / 32 * 32 + a % 2 * 16 + y % 16) s ∧
    SetsByte (.setPtype b) 0x1A b 4 (a % 8 * 32 + y % 32) s

/-- R125: the packed header bytes round-trip, with the setters in any order. -/
def Obligations.PackedHeaderBytesRoundTrip : Prop :=
  ∀ (b : Buf) (s : State),
    (∀ (v sg n : Nat) (lines : List AsmLine), v < 4 → sg < 2 → n < 32 → lines.Perm (byte3Setters b v sg n) →
      ∃ t, hostActions (assemble lines) s = .next t ∧ Answers (.getVersion b) v t ∧ Answers (.getSigned b) sg t ∧
        Answers (.getLength b) n t) ∧
    (∀ (c r a p : Nat) (lines : List AsmLine), c < 8 → r < 2 → a < 2 → p < 8 → lines.Perm (byte4Setters b c r a p) →
      ∃ t, hostActions (assemble lines) s = .next t ∧ Answers (.getCommand b) c t ∧ Answers (.getReqack b) r t ∧
        Answers (.getAck b) a t ∧ Answers (.getPtype b) p t)

/-- R142 to R146, R148, R149: what each scalar payload setter stores. -/
def Obligations.ScalarPayloadSettersStoreLittleEndian : Prop :=
  ∀ (b : Buf) (s : State),
    let a := s.inp.arg0.toNat
    SetsPayload (.setByte b) 0x21 b 1 (leBytes 1 a) 0 s ∧ SetsPayload (.setInt16 b) 0x22 b 2 (leBytes 2 a) 0 s ∧
    SetsPayload (.setUint16 b) 0x23 b 3 (leBytes 2 a) 0 s ∧ SetsPayload (.setLong32 b) 0x24 b 4 (leBytes 4 a) 0 s ∧
    SetsPayload (.setUlong32 b) 0x25 b 5 (leBytes 4 a) 0 s ∧
    SetsPayload (.setFloat32 b) 0x27 b 7 (leBytes 4 a ++ [s.inp.arg1]) 0 s ∧
    SetsPayload (.setPresentation b) 0x28 b 6 (leBytes 1 a ++ [s.inp.arg1]) 0 s

/-- R141, R147: the byte-string setters refuse more than 50 bytes, cut 26 to 50 to the first 25, and store the rest whole. -/
def Obligations.ByteStringSettersTruncateOrRefuse : Prop :=
  ∀ (b : Buf) (s : State) (i : Instr) (op tag : Nat),
    (i, op, tag) ∈ [(Instr.setString b, 0x20, 0), (Instr.setCustom b, 0x26, 6)] →
      if 50 < s.inp.sinLen.toNat then Coded i op ∧ exec i s = .next { s with status := 9 }
      else if 25 < s.inp.sinLen.toNat then SetsPayload i op b tag (s.inp.sin.toList.take 25) 2 s
      else SetsPayload i op b tag (s.inp.sin.toList.take s.inp.sinLen.toNat) 0 s

/-- R150: after a payload setter that ends `OK` or `TRUNCATED`, the length field is the exact length of the representation,
never more than 25, the tag is the setter's, and the terminator follows the payload. -/
def Obligations.PayloadSettersEstablishTheLengthInvariant : Prop :=
  ∀ (b : Buf) (s t : State) (i : Instr) (tag : Nat) (len? : Option Nat), (i, tag, len?) ∈ payloadSetters b →
    exec i s = .next t → t.status = 0 ∨ t.status = 2 →
      (t.fb b)[3].toNat / 8 = len?.getD (min s.inp.sinLen.toNat 25) ∧ (t.fb b)[3].toNat / 8 ≤ 25 ∧
      (t.fb b)[4].toNat / 32 = tag ∧ (t.fb b).byte (7 + (t.fb b)[3].toNat / 8) = 0

/-- R171 to R178: the scalar getters answer the value of a payload whose tag and length fit, else zero and
`TYPE_MISMATCH`. -/
def Obligations.ScalarGettersCheckTagAndLength : Prop :=
  ∀ (b : Buf) (s : State),
    let f := s.fb b
    AnswersTyped (.getByte b) 0x31 b 1 1 (BitVec.ofNat 32 (leValue f 1)) s ∧
    AnswersTyped (.getInt16 b) 0x32 b 2 2 (BitVec.ofInt 32 (signedValue 16 (leValue f 2))) s ∧
    AnswersTyped (.getUint16 b) 0x33 b 3 2 (BitVec.ofNat 32 (leValue f 2)) s ∧
    AnswersTyped (.getLong32 b) 0x34 b 4 4 (BitVec.ofNat 32 (leValue f 4)) s ∧
    AnswersTyped (.getUlong32 b) 0x35 b 5 4 (BitVec.ofNat 32 (leValue f 4)) s ∧
    AnswersTyped (.getFloat32 b) 0x37 b 7 5 (BitVec.ofNat 32 (leValue f 4)) s ∧
    AnswersTyped (.getPrecision b) 0x38 b 7 5 (BitVec.ofNat 32 (f.byte 11).toNat) s ∧
    AnswersTyped (.getPresentation b) 0x39 b 6 2 (BitVec.ofNat 32 (leValue f 2)) s

/-- R179: the decimal text of a number is its digits with no leading zero, a minus sign before those of a negative one, and
no longer than the rule's longest results. -/
def Obligations.DecimalTextIsExact : Prop :=
  (∀ n : Nat, (∀ c ∈ decNat n, IsDigit c) ∧ decimalValue (decNat n) = n ∧ decNat n ≠ [] ∧
    ((decNat n).head? = some 0x30 → decNat n = [0x30])) ∧
  (∀ v : Int, decInt v = (if v < 0 then [0x2D] else []) ++ decNat v.natAbs) ∧
  (∀ n : Nat, (n < 2 ^ 8 → (decNat n).length ≤ 3) ∧ (n < 2 ^ 16 → (decNat n).length ≤ 5) ∧
    (n < 2 ^ 32 → (decNat n).length ≤ 10)) ∧
  (∀ v : Int, (-2 ^ 15 ≤ v → v < 2 ^ 15 → (decInt v).length ≤ 6) ∧ (-2 ^ 31 ≤ v → v < 2 ^ 31 → (decInt v).length ≤ 11))

/-- R180: the hex text of `k` bytes is `2k` uppercase digits, the high nibble of each byte first. -/
def Obligations.HexTextIsTwoDigitsPerByte : Prop :=
  ∀ bytes : List Byte, (hexText bytes).length = 2 * bytes.length ∧
    ∀ i, i < bytes.length →
      (hexText bytes).getD (2 * i) 0 = hexCharOf ((bytes.getD i 0).toNat / 16) ∧
      (hexText bytes).getD (2 * i + 1) 0 = hexCharOf ((bytes.getD i 0).toNat % 16)

/-- R181, the default formatter (notes/assumptions/4.md): the float text is the exact value rounded half away from zero to
`p` decimals, with the sign bit's minus sign, the special texts, and spaces up to width 2. -/
def Obligations.FloatTextRoundsTheExactValue : Prop :=
  ∀ (w : Word) (p : Nat), ∃ text : List Byte,
    fmtFloat w p = List.replicate (2 - text.length) 0x20 ++ text ∧
    if exponentField w = 255 ∧ fractionField w ≠ 0 then text = [0x6E, 0x61, 0x6E]
    else if exponentField w = 255 then
      text = (if w.toNat / 2 ^ 31 = 1 then [0x2D] else []) ++ [0x69, 0x6E, 0x66]
    else
      ∃ (r : Nat) (frac : List Byte), (r : Int) = ⌊magnitude w * 10 ^ p + 1 / 2⌋ ∧ frac.length = p ∧
        (∀ c ∈ frac, IsDigit c) ∧ decimalValue frac = r % 10 ^ p ∧
        text = (if w.toNat / 2 ^ 31 = 1 then [0x2D] else []) ++ decNat (r / 10 ^ p) ++
          (if 0 < p then 0x2E :: frac else [])

/-- R182: the text each tag is delivered as, the mismatch of a short numeric payload, the clamp of an overlong string or
custom payload, and the overflow of a text longer than 50. Float text is the default formatter's (notes/assumptions/4.md). -/
def Obligations.GetStringDeliversTextForEveryTag : Prop :=
  ∀ (b : Buf) (s : State), Coded (.getString b) 0x3A ∧ ∃ t, exec (.getString b) s = .next t ∧
    let f := s.fb b
    let n := f[3].toNat / 8
    let tag := f[4].toNat / 32
    let clamped : Byte := if 25 < n then 3 else 0
    if tag = 0 then DeliversText s t (payloadBytes f (min n 25)) clamped
    else if tag = 6 then DeliversText s t (hexText (payloadBytes f (min n 25))) clamped
    else if tag = 1 then (if n < 1 then HoldsText s t [] 1 else DeliversText s t (decNat (leValue f 1)) 0)
    else if tag = 2 then (if n < 2 then HoldsText s t [] 1 else DeliversText s t (decInt (signedValue 16 (leValue f 2))) 0)
    else if tag = 3 then (if n < 2 then HoldsText s t [] 1 else DeliversText s t (decNat (leValue f 2)) 0)
    else if tag = 4 then (if n < 4 then HoldsText s t [] 1 else DeliversText s t (decInt (signedValue 32 (leValue f 4))) 0)
    else if tag = 5 then (if n < 4 then HoldsText s t [] 1 else DeliversText s t (decNat (leValue f 4)) 0)
    else (if n < 5 then HoldsText s t [] 1
      else DeliversText s t (fmtFloat (BitVec.ofNat 32 (leValue f 4)) (f.byte 11).toNat) 0)

/-- R183, R184: the hex and raw reads deliver the payload for every tag, clamped to 25 bytes with `MALFORMED`. -/
def Obligations.HexAndRawReadsDeliverThePayload : Prop :=
  ∀ (b : Buf) (s : State),
    let f := s.fb b
    let n := f[3].toNat / 8
    let st : Byte := if 25 < n then 3 else 0
    Coded (.getHex b) 0x3B ∧ Coded (.getRaw b) 0x3C ∧
    (∃ t, exec (.getHex b) s = .next t ∧ HoldsText s t (hexText (payloadBytes f (min n 25))) st) ∧
    (∃ t, exec (.getRaw b) s = .next t ∧ HoldsText s t (payloadBytes f (min n 25)) st)

/-- R185: the checks of `LOAD_HEX` in order, and the bytes it stores. -/
def Obligations.LoadHexStoresTheDecodedBytes : Prop :=
  ∀ (b : Buf) (s : State),
    let n := s.inp.sinLen.toNat
    Coded (.loadHex b) 0x3D ∧
    if 50 < n ∨ s.inp.arg1.toNat / 8 ≠ 0 then exec (.loadHex b) s = .next { s with status := 9 }
    else if n % 2 = 1 ∨ ∃ c ∈ s.inp.sin.toList.take n, ¬ IsHex c then exec (.loadHex b) s = .next { s with status := 4 }
    else ∃ bytes : List Byte, bytes.length = n / 2 ∧
      (∀ i, i < n / 2 → (bytes.getD i 0).toNat =
        16 * hexDigitValue (s.inp.sin.toList.getD (2 * i) 0) + hexDigitValue (s.inp.sin.toList.getD (2 * i + 1) 0)) ∧
      SetsPayload (.loadHex b) 0x3D b (s.inp.arg1.toNat % 8) bytes 0 s

/-- R186: hex text of a payload, copied by the host and loaded into either buffer under the payload's tag, reproduces the
payload, its length and its tag. -/
def Obligations.HexRoundTripsBetweenBuffers : Prop :=
  ∀ (b c : Buf) (s : State), (s.fb b)[3].toNat / 8 ≤ 25 →
    ∃ t u v, exec (.getHex b) s = .next t ∧
      hostActions (assemble [.wrSin (t.sout.toList.take t.soutLen.toNat), .wrArg1 (BitVec.ofNat 8 ((s.fb b)[4].toNat / 32))]) t
        = .next u ∧
      exec (.loadHex c) u = .next v ∧ v.status = 0 ∧
      (v.fb c)[3].toNat / 8 = (s.fb b)[3].toNat / 8 ∧ (v.fb c)[4].toNat / 32 = (s.fb b)[4].toNat / 32 ∧
      ∀ k, k < (s.fb b)[3].toNat / 8 → (v.fb c).byte (7 + k) = (s.fb b).byte (7 + k)

/-- R187: a float pattern and its precision round-trip exactly, and the text of a finite value has exactly `p` digits after
the point where `p > 0` and it fits, else `OUT_OVERFLOW`. The text is the default formatter's, which the model chooses
(notes/assumptions/4.md). -/
def Obligations.FloatRoundTripsWithItsPrecision : Prop :=
  ∀ (b : Buf) (s : State), ∃ t u, exec (.setFloat32 b) s = .next t ∧
    exec (.getFloat32 b) t = .next { t with res := s.inp.arg0 } ∧
    exec (.getPrecision b) t = .next { t with res := BitVec.ofNat 32 s.inp.arg1.toNat } ∧
    exec (.getString b) t = .next u ∧
    (exponentField s.inp.arg0 ≠ 255 → 0 < s.inp.arg1.toNat →
      (∃ front frac : List Byte, frac.length = s.inp.arg1.toNat ∧ (∀ c ∈ frac, IsDigit c) ∧ 0x2E ∉ front ∧
        fmtFloat s.inp.arg0 s.inp.arg1.toNat = front ++ 0x2E :: frac) ∧
      if 50 < (fmtFloat s.inp.arg0 s.inp.arg1.toNat).length then HoldsText t u [] 5
      else HoldsText t u (fmtFloat s.inp.arg0 s.inp.arg1.toNat) 0)

/-- R210: `NOP` writes `STATUS <- OK` and nothing else. -/
def Obligations.NopOnlyClearsStatus : Prop :=
  Coded .nop 0x00 ∧ ∀ s : State, exec .nop s = .next { s with status := 0 }

/-- R211: `WIRE_DECODE` refuses a count or length that is no whole frame, changing nothing else; otherwise the RX frame gets
the wire bytes and the terminator, and keeps its other bytes. -/
def Obligations.WireDecodeAcceptsExactlyWholeFrames : Prop :=
  Coded .wireDecode 0x40 ∧
  ∀ s : State,
    let c := s.inp.wireInCount.toNat
    let n := s.inp.wireIn[3].toNat / 8
    if c < 7 ∨ 32 < c ∨ 25 < n ∨ c < 7 + n then exec .wireDecode s = .next { s with status := 3 }
    else ∃ g : Frame, exec .wireDecode s = .next { s with rx := g, status := 0 } ∧
      ∀ (j : Nat) (h : j < 33), g[j] =
        if j < 7 + n then s.inp.wireIn.toList.getD j 0 else if j = 7 + n then 0 else s.rx[j]

/-- R212: `WIRE_ENCODE` refuses a halted node, an overlong frame and an unassigned node's ordinary frame, in that order, each
by a count of 0; otherwise the wire port gets the frame, and an unassigned node is requesting. -/
def Obligations.WireEncodeEmitsOnlyPermittedFrames : Prop :=
  Coded .wireEncode 0x41 ∧
  ∀ s : State,
    let n := s.tx[3].toNat / 8
    if s.halted = true then exec .wireEncode s = .next { s with wireOutCount := 0, status := 8 }
    else if 25 < n then exec .wireEncode s = .next { s with wireOutCount := 0, status := 3 }
    else if s.nodeId = 255 ∧ ¬ IsIdRequest s.tx s.cfg then
      exec .wireEncode s = .next { s with wireOutCount := 0, status := 10 }
    else ∃ w : Vector Byte 32,
      exec .wireEncode s = .next { s with
        wireOut := w, wireOutCount := BitVec.ofNat 6 (7 + n), wireOutDest := s.tx[2],
        reqPending := if s.nodeId = 255 then true else s.reqPending, status := 0 } ∧
      ∀ (j : Nat) (h : j < 32), w[j] = if j < 7 + n then s.tx[j] else 0

/-- R213, R214: `FRAME_COPY` copies all 33 bytes; `BUILD_ACK` copies them and then sets the sender, the destination and the
two acknowledgment flags. -/
def Obligations.FrameCopyAndAcknowledgment : Prop :=
  Coded .frameCopy 0x42 ∧ Coded .buildAck 0x43 ∧
  ∀ s : State,
    exec .frameCopy s = .next { s with tx := s.rx, status := 0 } ∧
    ∃ g : Frame, exec .buildAck s = .next { s with tx := g, status := 0 } ∧
      ∀ (j : Nat) (h : j < 33), g[j] =
        if j = 1 then s.nodeId
        else if j = 2 then s.rx[1]
        else if j = 4 then BitVec.ofNat 8 (s.rx[4].toNat / 32 * 32 + 16 + s.rx[4].toNat % 8)
        else s.rx[j]

/-- What one node encodes another decodes: the bytes on the wire port, handed to the receiving port, give an RX frame with
the same header and payload and a terminator after it (R73, R211, R212). -/
def Obligations.WireFrameRoundTrips : Prop :=
  ∀ s : State, s.halted = false → s.nodeId ≠ 255 → s.tx[3].toNat / 8 ≤ 25 →
    ∃ t u v, exec .wireEncode s = .next t ∧
      hostActions (assemble [.wrWireIn (t.wireOut.toList.take t.wireOutCount.toNat)]) t = .next u ∧
      exec .wireDecode u = .next v ∧ v.status = 0 ∧
      (∀ j, j < 7 + s.tx[3].toNat / 8 → v.rx.byte j = s.tx.byte j) ∧ v.rx.byte (7 + s.tx[3].toNat / 8) = 0

/-- The bytes of a frame beyond its length never reach the wire: two TX frames that agree on the wire frame are encoded
alike (R36, R73). -/
def Obligations.HiddenBytesNeverReachTheWire : Prop :=
  ∀ (s : State) (g : Frame), (∀ (j : Nat) (h : j < 33), j < 7 + s.tx[3].toNat / 8 → g[j] = s.tx[j]) →
    ∃ t, exec .wireEncode s = .next t ∧ exec .wireEncode { s with tx := g } = .next { t with tx := g }

/-- R231, R232: the loads at boot; the address load is refused while halted, an unset preference becomes metric in the
register only. -/
def Obligations.LoadsReadTheirStorageByte : Prop :=
  Coded .idLoad 0x50 ∧ Coded .cfgLoad 0x51 ∧
  ∀ s : State, s.cfg.wf = true →
    exec .idLoad s = .next (if s.halted = true then { s with status := 8 }
      else { s with nodeId := s.storage.read s.cfg.eeNodeId, reqPending := false, status := 0 }) ∧
    exec .cfgLoad s = .next { s with
      unitPref := if s.storage.read s.cfg.eeUnit = 255 then 1 else s.storage.read s.cfg.eeUnit, status := 0 }

/-- R233, R248: `ID_ADOPT` of `ARG0[7:0]`. -/
def Obligations.AdoptionTakesAnAddressOnce : Prop :=
  Coded .idAdopt 0x52 ∧
  ∀ s : State, s.cfg.wf = true → ∃ t, exec .idAdopt s = .next t ∧ Adopts s (BitVec.ofNat 8 (s.inp.arg0.toNat % 256)) t

/-- R243, R246: `ID_ADOPT_RX` checks the state first, decodes a byte payload or a string of 1 to 3 digits of at most 255, and
adopts it. -/
def Obligations.AdoptionFromTheReceivedFrame : Prop :=
  Coded .idAdoptRx 0x5C ∧
  ∀ s : State, s.cfg.wf = true → ∃ t, exec .idAdoptRx s = .next t ∧
    let n := s.rx[3].toNat / 8
    let digits := payloadBytes s.rx n
    if s.halted = true then t = { s with status := 8 }
    else if s.nodeId ≠ 255 then t = { s with status := 7 }
    else if TagAndLength s.rx 1 1 then Adopts s s.rx[7] t
    else if TagAndLength s.rx 0 1 ∧ n ≤ 3 ∧ (∀ c ∈ digits, IsDigit c) ∧ decimalValue digits ≤ 255 then
      Adopts s (BitVec.ofNat 8 (decimalValue digits)) t
    else t = { s with status := 1 }

/-- R234: `ID_SET_STATIC` is refused while halted and for `AUTO`; otherwise it sets the register, and storage only where
`STATIC_ID_PERSISTS`, on change. -/
def Obligations.StaticAddressIsInstalled : Prop :=
  Coded .idSetStatic 0x53 ∧
  ∀ s : State, s.cfg.wf = true → ∃ t, exec .idSetStatic s = .next t ∧
    let a : Byte := BitVec.ofNat 8 (s.inp.arg0.toNat % 256)
    let e := s.cfg.eeNodeId
    if s.halted = true then t = { s with status := 8 }
    else if a = 255 then t = { s with status := 9 }
    else if s.cfg.staticIdPersists = true then
      t = { s with
          nodeId := a, reqPending := false, storage := t.storage,
          storageWrites := s.storageWrites ++ (if s.storage.read e = a then [] else [(e, a)]), status := 0 } ∧
        ∀ x, t.storage.read x = if x = e then a else s.storage.read x
    else t = { s with nodeId := a, reqPending := false, status := 0 }

/-- R235, R249: `CFG_UPDATE` accepts metric and imperial only, and writes storage only where the value compared with
differs. -/
def Obligations.UnitUpdateWritesOnChange : Prop :=
  Coded .cfgUpdate 0x54 ∧
  ∀ s : State, s.cfg.wf = true → ∃ t, exec .cfgUpdate s = .next t ∧
    let v := s.inp.arg0.toNat % 256
    if v ≠ 1 ∧ v ≠ 0 then t = { s with status := 9 } else Updates s (BitVec.ofNat 8 v) t

/-- R244, R247: `CFG_UPDATE_RX` takes a string payload that begins with 'M' or 'I', and refuses any other. -/
def Obligations.UnitUpdateFromTheReceivedFrame : Prop :=
  Coded .cfgUpdateRx 0x5D ∧
  ∀ s : State, s.cfg.wf = true → ∃ t, exec .cfgUpdateRx s = .next t ∧
    if TagAndLength s.rx 0 1 ∧ s.rx[7] = 0x4D then Updates s 1 t
    else if TagAndLength s.rx 0 1 ∧ s.rx[7] = 0x49 then Updates s 0 t
    else t = { s with status := 1 }

/-- R236, R252: the check and the gate agree: an encode offers a frame exactly where the check reports it may be sent and the
frame has a wire form, and for an unassigned node only an identity request. -/
def Obligations.TransmissionGateAgreesWithTheCheck : Prop :=
  Coded .idTxCheck 0x55 ∧
  ∀ s : State, ∃ t, exec .wireEncode s = .next t ∧
    exec .idTxCheck s = .next { s with
      res := if s.halted = true then 2 else if s.nodeId = 255 ∧ ¬ IsIdRequest s.tx s.cfg then 1 else 0, status := 0 } ∧
    (t.wireOutCount ≠ 0 ↔
      s.halted = false ∧ ¬ (s.nodeId = 255 ∧ ¬ IsIdRequest s.tx s.cfg) ∧ s.tx[3].toNat / 8 ≤ 25)

/-- R237, R254: a success clears the failure counter, and `k` failures after it count `k` modulo 256. -/
def Obligations.FailureCounterCountsModulo256 : Prop :=
  Coded .txResult 0x56 ∧
  (∀ s : State, exec .txResult s = .next { s with
    failCnt := if s.inp.arg0.toNat % 2 = 1 then 0 else BitVec.ofNat 8 (s.failCnt.toNat + 1), status := 0 }) ∧
  ∀ (k : Nat) (s : State), ∃ t,
    hostActions (assemble (.opV .txResult 1 :: List.replicate k (.opV .txResult 0))) s = .next t ∧ t.failCnt.toNat = k % 256

/-- R238 to R241, R34: the identity registers and the lifecycle state are read by their queries. -/
def Obligations.IdentityQueriesAnswerTheRegisters : Prop :=
  ∀ s : State,
    Reads .getNodeId 0x57 s.nodeId.toNat s ∧ Reads .getUnitPref 0x58 s.unitPref.toNat s ∧ Reads .getFailCnt 0x59 s.failCnt.toNat s ∧
    Reads .getIdState 0x5A (if s.halted = true then 3 else if s.nodeId ≠ 255 then 2 else if s.reqPending = true then 1 else 0) s

/-- R242: the class of the RX frame and the acknowledgment flag. -/
def Obligations.ReceivedFrameIsClassified : Prop :=
  ∀ s : State, Reads .rxClassify 0x5B
    (if s.rx[3].toNat % 4 ≠ 2 then 0
    else if s.rx[2] ≠ s.nodeId then 1
    else s.rx[4].toNat / 8 % 2 * 16 +
      (if s.rx[4].toNat % 8 = 3 ∧ s.rx[1] = 0 then
        (if s.rx[5] = s.cfg.iReboot then 3
        else if s.rx[5] = s.cfg.iIdResponse then 4
        else if s.rx[5] = s.cfg.iConfig then 5
        else if s.rx[5] = s.cfg.iTime then 6
        else 7)
      else 2)) s

/-- R253: an assigned address changes only through `ID_SET_STATIC` or `ID_LOAD`; the adoptions change it only from `AUTO`. -/
def Obligations.AssignedAddressChangesOnlyByLoadOrStatic : Prop :=
  (∀ (i : Instr) (s t : State), exec i s = .next t → s.nodeId ≠ 255 → t.nodeId ≠ s.nodeId → i = .idSetStatic ∨ i = .idLoad) ∧
  ∀ (i : Instr) (s t : State), i = .idAdopt ∨ i = .idAdoptRx → exec i s = .next t → t.nodeId ≠ s.nodeId → s.nodeId = 255

/-- R27: which operations write each frame buffer; none writes both. -/
def Obligations.FramesAreWrittenOnlyByTheirOperations : Prop :=
  ∀ (i : Instr) (s t : State) (b : Buf), exec i s = .next t → t.fb b ≠ s.fb b → frameWritten i = some b

/-- The host-written registers, the configuration and the host's script are the host's: no operation changes them (R21, R40,
R324). -/
def Obligations.OperationsLeaveInputsAndConfiguration : Prop :=
  ∀ (i : Instr) (s t : State), exec i s = .next t → t.inp = s.inp ∧ t.cfg = s.cfg ∧ t.script = s.script

/-- `STATUS` is not sticky: every operation overwrites it and none reads it (R28). -/
def Obligations.StatusIsOverwrittenAndNeverRead : Prop :=
  ∀ (i : Instr) (s : State) (x : Byte), exec i { s with status := x } = exec i s

/-- What a refused operation leaves behind: `STATUS` alone changed, for every `ILLEGAL_STATE`, `BAD_OPERAND` and `HEX_INVALID`,
for `TYPE_MISMATCH` of an identity operation, for `MALFORMED` of `WIRE_DECODE`, and for an identity operation refused while
halted (R302). -/
def Obligations.RefusedOperationsChangeOnlyStatus : Prop :=
  ∀ (i : Instr) (s t : State), exec i s = .next t →
    t.status = 7 ∨ t.status = 9 ∨ t.status = 4 ∨ (t.status = 1 ∧ i ∈ identityOps) ∨ (t.status = 3 ∧ i = .wireDecode) ∨
      (t.status = 8 ∧ s.halted = true ∧ i ∈ identityOps) →
    t = { s with status := t.status }

/-- With the default comparison, an operation writes storage only where the byte changes, at most one byte, only at a record,
and only an adoption, a static address or an update writes (R55, R57). -/
def Obligations.StorageIsWrittenOnlyOnChange : Prop :=
  ∀ (i : Instr) (s t : State), s.cfg.cmpSource = .storage → exec i s = .next t →
    (t.storage = s.storage ∧ t.storageWrites = s.storageWrites) ∨
    ∃ a v, (a = s.cfg.eeNodeId ∨ a = s.cfg.eeUnit) ∧ s.storage.read a ≠ v ∧
      t.storageWrites = s.storageWrites ++ [(a, v)] ∧ (∀ x, t.storage.read x = if x = a then v else s.storage.read x) ∧
      i ∈ [Instr.idAdopt, .idAdoptRx, .idSetStatic, .cfgUpdate, .cfgUpdateRx]

/-- Along every run the history of storage writes grows by exactly the writes that made the storage what it is (R58). -/
def Obligations.StorageIsItsHistoryReplayed : Prop :=
  ∀ (k : Nat) (s t : State), Host.Core.run Sys2Proof.core k s = .next t →
    ∃ ws, t.storageWrites = s.storageWrites ++ ws ∧ ∀ a, t.storage.read a = replayed ws a (s.storage.read a)

/-- R251: once the node is halted, along every run of any length in which the host does not reset, it stays halted and
unassigned, the wire port offers what it offered or nothing, and an encode ends `HALTED` with nothing to send. -/
def Obligations.HaltedNodeNeverTransmitsAgain : Prop :=
  ∀ (k : Nat) (s : State), s.cfg.wf = true → s.halted = true → (∀ a ∈ s.script, a.keepsPower = true) →
    ∃ t, Host.Core.run Sys2Proof.core k s = .next t ∧ t.halted = true ∧ t.nodeId = s.nodeId ∧
      (t.wireOutCount = s.wireOutCount ∨ t.wireOutCount = 0) ∧
      exec .wireEncode t = .next { t with wireOutCount := 0, status := 8 }

/-- R84: a line that writes an operand register writes it alone; `WR SIN` and `WR WIRE_IN` write the bytes from the port's
first on and their count (63 for more than 63 bytes, which the model chooses, notes/assumptions/5.md); a line of an operation
runs it, after the operands or the text written on the line. -/
def Obligations.AssemblerLinesRunTheirOperation : Prop :=
  ∀ (i : Instr) (v : Word) (p : Byte) (bytes : List Byte) (s : State),
    let n : Count := BitVec.ofNat 6 (min bytes.length 63)
    hostActions (AsmLine.wrArg0 v).expand s = .next { s with inp := { s.inp with arg0 := v } } ∧
    hostActions (AsmLine.wrArg1 p).expand s = .next { s with inp := { s.inp with arg1 := p } } ∧
    hostActions (AsmLine.op i).expand s = exec i { s with inp := { s.inp with cmd := encode i } } ∧
    hostActions (AsmLine.opV i v).expand s = exec i { s with inp := { s.inp with arg0 := v, cmd := encode i } } ∧
    hostActions (AsmLine.opVP i v p).expand s =
      exec i { s with inp := { s.inp with arg0 := v, arg1 := p, cmd := encode i } } ∧
    (∃ q : Vector Byte 50, (∀ (j : Nat) (h : j < 50), q[j] = if j < bytes.length then bytes.getD j 0 else s.inp.sin[j]) ∧
      hostActions (AsmLine.wrSin bytes).expand s = .next { s with inp := { s.inp with sin := q, sinLen := n } } ∧
      hostActions (AsmLine.opText i bytes).expand s =
        exec i { s with inp := { s.inp with sin := q, sinLen := n, cmd := encode i } }) ∧
    ∃ q : Vector Byte 32, (∀ (j : Nat) (h : j < 32), q[j] = if j < bytes.length then bytes.getD j 0 else s.inp.wireIn[j]) ∧
      hostActions (AsmLine.wrWireIn bytes).expand s =
        .next { s with inp := { s.inp with wireIn := q, wireInCount := n } }

/-- R270: routing a frame of an assigned, unhalted node stamps the version, hands the wire frame to the transport once, and
counts the outcome. The outcomes are data of the node, and one beyond them is a failure (notes/assumptions/9.md). -/
def Obligations.RouteSendsTheStampedFrame : Prop :=
  ∀ n : Node, n.dev.halted = false → n.dev.nodeId ≠ 255 → n.dev.tx[3].toNat / 8 ≤ 25 →
    ∃ m, n.route = .next m ∧
      let ok := n.outcomes.headD false
      m.log = n.log ++ [.sent n.dev.tx[2] (stampedBytes n.dev.tx) ok] ∧ m.outcomes = n.outcomes.tail ∧
      m.dev.failCnt = (if ok = true then 0 else n.dev.failCnt + 1) ∧ m.report = (if ok = true then .success else .failure) ∧
      m.dev.rx = n.dev.rx

/-- R270, R279: an unassigned node that routes an ordinary frame sends the identity request instead, once, is then
requesting, and reports failure. The request's outcome is the node's next one (notes/assumptions/9.md). -/
def Obligations.UnassignedRouteSendsTheIdentityRequest : Prop :=
  ∀ n : Node, n.dev.halted = false → n.dev.nodeId = 255 → ¬ IsIdRequest n.dev.tx n.dev.cfg →
    ∃ m, n.route = .next m ∧ m.report = .failure ∧ m.dev.reqPending = true ∧ m.dev.nodeId = 255 ∧
      m.log = n.log ++ [.sent 0 (idRequestBytes n.dev.tx n.dev.cfg n.params) (n.outcomes.headD false)]

/-- R273: an application frame that asks for it is acknowledged exactly once, before the callback, which sees the frame
intact. The acknowledgment's outcome is the node's next one (notes/assumptions/9.md). -/
def Obligations.AcknowledgmentPrecedesTheCallback : Prop :=
  ∀ (n : Node) (bytes : List Byte), n.dev.halted = false → n.dev.nodeId ≠ 255 → WholeFrameFor n.dev.nodeId bytes →
    (bytes.getD 4 0).toNat / 8 % 2 = 1 → ¬ ((bytes.getD 4 0).toNat % 8 = 3 ∧ bytes.getD 1 0 = 0) →
    ∃ (m : Node) (f : Frame), Node.receive bytes n = .next m ∧ m.report = .handled ∧
      m.log = n.log ++ [.sent (bytes.getD 1 0) (ackBytes n.dev.nodeId bytes) (n.outcomes.headD false), .message f] ∧
      ∀ j, j < 7 + (bytes.getD 3 0).toNat / 8 → f.byte j = bytes.getD j 0

/-- R272: an internal frame from the gateway is never handed to the application, whatever its type. -/
def Obligations.GatewayInternalFramesStayInternal : Prop :=
  ∀ (n : Node) (bytes : List Byte), n.dev.cfg.wf = true → (bytes.getD 4 0).toNat % 8 = 3 → bytes.getD 1 0 = 0 →
    ∃ m, Node.receive bytes n = .next m ∧ m.log.filter EngineEvent.isMessage = n.log.filter EngineEvent.isMessage

/-- A halted node's host sends nothing: not by routing, not by sending, not while processing what arrives (R251, R270,
R272). -/
def Obligations.HaltedNodeHandsNothingToTheTransport : Prop :=
  ∀ n : Node, n.dev.cfg.wf = true → n.dev.halted = true →
    (∃ m, n.route = .next m ∧ m.report = .failure ∧ m.log = n.log) ∧
    (∀ r, ∃ m, n.send r = .next m ∧ m.report = .failure ∧ m.log = n.log) ∧
    ∃ m, n.process = .next m ∧ m.log.filter EngineEvent.isSend = n.log.filter EngineEvent.isSend

/-- R278: the configuration request and the presentation frame, built in the TX frame over its `last` byte, its signed flag
and its bytes beyond. -/
def Obligations.InternalFramesTheHostBuilds : Prop :=
  ∀ n : Node,
    (∃ m, n.configRequest = .next m ∧ m.log = n.log ∧ m.dev.rx = n.dev.rx ∧
      ∀ (j : Nat) (h : j < 33), m.dev.tx[j] =
        if j = 1 then n.dev.nodeId
        else if j = 2 then 0
        else if j = 3 then BitVec.ofNat 8 (n.dev.tx[3].toNat % 8)
        else if j = 4 then 3
        else if j = 5 then n.dev.cfg.iConfig
        else if j = 6 then n.params.sensorNode
        else if j = 7 then 0
        else n.dev.tx[j]) ∧
    ∃ m, n.presentation = .next m ∧ m.log = n.log ∧ m.dev.rx = n.dev.rx ∧
      ∀ (j : Nat) (h : j < 33), m.dev.tx[j] =
        if j = 1 then n.dev.nodeId
        else if j = 2 then 0
        else if j = 3 then BitVec.ofNat 8 (2 * 8 + n.dev.tx[3].toNat % 8)
        else if j = 4 then BitVec.ofNat 8 (6 * 32 + n.dev.tx[4].toNat % 32 / 8 * 8)
        else if j = 5 then n.params.presType
        else if j = 6 then n.params.sensorNode
        else if j = 7 then n.params.libVersion
        else if j = 8 then n.params.presClass
        else if j = 9 then 0
        else n.dev.tx[j]

/-- R274: a node whose storage holds an address boots with it: it is loaded, the transport is initialised with it, no
identity is requested, the stamped presentation and configuration request of R278 go to the gateway in that order, each with
the transport's next outcome, and the rest is the wait of step 6, which answers. The outcomes are data of the node
(notes/assumptions/9.md); the wait is a number of polls (notes/assumptions/8.md). -/
def Obligations.BootWithAStoredAddress : Prop :=
  ∀ (n : Node) (power frequency : Nat), n.dev.cfg.wf = true → n.dev.halted = false →
    n.dev.storage.read n.dev.cfg.eeNodeId ≠ 255 →
    let a := n.dev.storage.read n.dev.cfg.eeNodeId
    let ok1 := n.outcomes.headD false
    let ok2 := n.outcomes.tail.headD false
    ∃ w m : Node, n.announce none power frequency = .next w ∧ n.begin none power frequency = w.poll n.params.finalPolls ∧
      w.poll n.params.finalPolls = .next m ∧
      w.log = n.log ++ [.init a power frequency, .bootstrapped true, .sent 0 (presentationBytes n.dev.tx a n.params) ok1,
        .sent 0 (configRequestBytes n.dev.tx a n.dev.cfg n.params) ok2] ∧
      w.dev.nodeId = a ∧ w.dev.rx = n.dev.rx ∧ w.dev.storageWrites = n.dev.storageWrites ∧ w.inbox = n.inbox ∧
      w.outcomes = n.outcomes.tail.tail ∧
      w.dev.failCnt = if ok2 = true then 0 else (if ok1 = true then 0 else n.dev.failCnt + 1) + 1
end

