-- ==== Sys2Proof/Laws/Frame.lean ====
section
/-! SUPPORT. The laws of frame bytes and packed header fields: what `SETF` leaves in each bit and as a number, and what each
frame write leaves in each of the 33 bytes. -/

namespace Sys2Proof.Machine

/-- Each bit after `SETF`: the field's bits come from the operand, the others stay. -/
theorem setF_getLsbD (x v : Byte) {hi lo : Nat} (h : lo ≤ hi) (i : Nat) (hi8 : i < 8) :
    (setF x hi lo v).getLsbD i = if lo ≤ i ∧ i ≤ hi then v.getLsbD (i - lo) else x.getLsbD i := by
  have hmask : (BitVec.ofNat 8 ((2 ^ (hi - lo + 1) - 1) * 2 ^ lo)).getLsbD i = decide (lo ≤ i ∧ i ≤ hi) := by
    rw [BitVec.getLsbD_ofNat, Nat.testBit_mul_two_pow, Nat.testBit_two_pow_sub_one]
    rw [decide_eq_true hi8, Bool.true_and, ← Bool.decide_and, decide_eq_decide]
    omega
  simp only [setF, BitVec.getLsbD_or, BitVec.getLsbD_and, BitVec.getLsbD_not, hmask, BitVec.getLsbD_shiftLeft]
  by_cases hb : lo ≤ i ∧ i ≤ hi <;> simp [hb, hi8]

/-- `SETF` as a number: the bits above the field, the field, the bits below it. -/
theorem setF_toNat (x v : Byte) {hi lo : Nat} (h : lo ≤ hi) (h8 : hi < 8) :
    (setF x hi lo v).toNat =
      2 ^ lo * (2 ^ (hi - lo + 1) * (x.toNat / 2 ^ (hi + 1)) + v.toNat % 2 ^ (hi - lo + 1)) + x.toNat % 2 ^ lo := by
  refine Nat.eq_of_testBit_eq fun i => ?_
  rw [Nat.testBit_two_pow_mul_add _ (Nat.mod_lt _ (by positivity)),
    Nat.testBit_two_pow_mul_add _ (Nat.mod_lt _ (by positivity))]
  simp only [Nat.testBit_mod_two_pow, Nat.testBit_div_two_pow, BitVec.testBit_toNat]
  by_cases hi8 : i < 8
  · rw [setF_getLsbD x v h i hi8]
    by_cases h1 : i < lo
    · simp [h1, show ¬ lo ≤ i by omega]
    · by_cases h2 : i ≤ hi
      · simp [h1, h2, show lo ≤ i by omega, show i - lo < hi - lo + 1 by omega]
      · simp [h1, h2, show ¬ i - lo < hi - lo + 1 by omega, show i - lo - (hi - lo + 1) + (hi + 1) = i by omega]
  · rw [BitVec.getLsbD_of_ge _ _ (by omega)]
    simp [show ¬ i < lo by omega, show ¬ i - lo < hi - lo + 1 by omega,
      show i - lo - (hi - lo + 1) + (hi + 1) = i by omega, BitVec.getLsbD_of_ge x i (by omega)]

/-- A header setter's operand as a number (R78). -/
theorem fieldOperand_toNat {w : Nat} (h : w ≤ 8) (a : Word) : (fieldOperand w a).toNat = a.toNat % 2 ^ w := by
  have : a.toNat % 2 ^ w < 2 ^ 8 := lt_of_lt_of_le (Nat.mod_lt _ (by positivity)) (Nat.pow_le_pow_right (by omega) h)
  simpa [fieldOperand, BitVec.toNat_setWidth] using this

/-- The low byte of an operand as a number. -/
theorem lowByte_toNat (a : Word) : (lowByte a).toNat = a.toNat % 256 := by
  simp [lowByte]

/-- Each byte after bytes are written into the payload (R140). -/
theorem Frame.getElem_putPayload (f : Frame) (bytes : List Byte) (j : Nat) (h : j < 33) :
    (f.putPayload bytes)[j] =
      if j < 7 then f[j]
      else if j - 7 < bytes.length then bytes.getD (j - 7) 0
      else if j - 7 = bytes.length then 0
      else f[j] := by
  rw [Frame.putPayload, Vector.getElem_ofFn]
  rfl

theorem Frame.getElem_putLen (f : Frame) (n j : Nat) (h : j < 33) :
    (f.putLen n)[j] = if j = 3 then setF f[3] 7 3 (BitVec.ofNat 8 n) else f[j] := by
  simp [Frame.putLen, Vector.getElem_set, eq_comm (a := 3)]

theorem Frame.getElem_putPtype (f : Frame) (tag : BitVec 3) (j : Nat) (h : j < 33) :
    (f.putPtype tag)[j] = if j = 4 then setF f[4] 7 5 (tag.setWidth 8) else f[j] := by
  simp [Frame.putPtype, Vector.getElem_set, eq_comm (a := 4)]

/-- Each byte after `SETPAYLOAD` (R140). -/
theorem Frame.getElem_setPayload (f : Frame) (tag : BitVec 3) (bytes : List Byte) (j : Nat) (h : j < 33) :
    (f.setPayload tag bytes)[j] =
      if j = 3 then setF f[3] 7 3 (BitVec.ofNat 8 bytes.length)
      else if j = 4 then setF f[4] 7 5 (tag.setWidth 8)
      else if j < 7 then f[j]
      else if j - 7 < bytes.length then bytes.getD (j - 7) 0
      else if j - 7 = bytes.length then 0
      else f[j] := by
  simp only [Frame.setPayload, Frame.getElem_putPtype, Frame.getElem_putLen, Frame.getElem_putPayload]
  by_cases h3 : j = 3
  · subst h3; simp
  · by_cases h4 : j = 4
    · subst h4; simp
    · simp [h3, h4]

/-- Each byte of the RX frame after a frame is received (R211). -/
theorem Frame.getElem_receive (f : Frame) (wire : Vector Byte 32) (n j : Nat) (h : j < 33) :
    (f.receive wire n)[j] =
      if j < 7 + n then (if h : j < 32 then wire[j] else 0) else if j = 7 + n then 0 else f[j] := by
  rw [Frame.receive, Vector.getElem_ofFn]
  rfl

/-- Each byte of the wire image (R212). -/
theorem Frame.getElem_wireImage (f : Frame) (n j : Nat) (h : j < 32) :
    (f.wireImage n)[j] = if j < 7 + n then f[j] else 0 := by
  rw [Frame.wireImage, Vector.getElem_ofFn]
  rfl

/-- Each byte of an acknowledgment (R214). -/
theorem Frame.getElem_ackOf (f : Frame) (a : Byte) (j : Nat) (h : j < 33) :
    (f.ackOf a)[j] =
      if j = 1 then a
      else if j = 2 then f[1]
      else if j = 4 then setF (setF f[4] 3 3 0) 4 4 1
      else f[j] := by
  simp only [Frame.ackOf, Frame.sender, Vector.getElem_set, eq_comm (a := (1 : Nat)), eq_comm (a := (2 : Nat)),
    eq_comm (a := (4 : Nat))]
  by_cases h1 : j = 1
  · subst h1; simp
  · simp [h1]

/-- The length field as a number (R72). -/
theorem Frame.len_eq (f : Frame) : f.len = f[3].toNat / 8 := by
  have := f[3].isLt
  simp only [Frame.len, Frame.lenField, BitVec.extractLsb'_toNat, Nat.shiftRight_eq_div_pow]
  omega

theorem Frame.len_le (f : Frame) : f.len ≤ 31 := by
  have := f.lenField.isLt
  simp only [Frame.len]; omega

/-- The tag field as a number (R72). -/
theorem Frame.ptype_toNat (f : Frame) : f.ptype.toNat = f[4].toNat / 32 := by
  have := f[4].isLt
  simp only [Frame.ptype, BitVec.extractLsb'_toNat, Nat.shiftRight_eq_div_pow]
  omega

/-- A payload byte inside the buffer is a frame byte (R11). -/
theorem Frame.pl_eq (f : Frame) {i : Nat} (h : i < 26) : f.pl i = f[7 + i] := by
  simp [Frame.pl, Frame.byte, headerSize, show 7 + i < 33 by omega]

@[simp] theorem Frame.length_payload (f : Frame) (k : Nat) : (f.payload k).length = k := by simp [Frame.payload]

theorem Frame.getElem_payload (f : Frame) (k i : Nat) (h : i < (f.payload k).length) : (f.payload k)[i] = f.pl i := by
  simp [Frame.payload]

theorem Frame.clampedLen_le (f : Frame) : f.clampedLen ≤ 25 := Nat.min_le_right _ _

/-- Every status code is one of the eleven the spec assigns (R28). -/
theorem Status.code_le (st : Status) : st.code.toNat ≤ 0x0A := by cases st <;> decide

/-- Distinct completions have distinct codes (R28). -/
theorem Status.code_injective {a b : Status} (h : a.code = b.code) : a = b := by
  revert h; cases a <;> cases b <;> decide

/-- Reading back the code of a tag gives the tag (R75). -/
@[simp] theorem PayloadTag.ofBits_code (t : PayloadTag) : PayloadTag.ofBits t.code = t := by cases t <;> rfl

@[simp] theorem PayloadTag.code_ofBits (v : BitVec 3) : (PayloadTag.ofBits v).code = v := by
  revert v; decide

/-- Each byte of a 50-byte port (R22). -/
theorem getElem_port50 (text : List Byte) (j : Nat) (h : j < 50) : (port50 text)[j] = text.getD j 0 := by
  simp [port50]

end Sys2Proof.Machine
end

