-- ==== Sys2Proof/Laws/Memory.lean ====
section
/-! SUPPORT. The laws of persisted storage: reading after a write, the canonical form, which every operation keeps, and
canonical storages that read alike being equal. -/

namespace Sys2Proof.Machine

@[simp] theorem Memory.read_nil (a : Nat) : Memory.read [] a = erasedByte := rfl

theorem Memory.read_cons (c : Host.Cell) (m : Memory) (a : Nat) :
    Memory.read (c :: m) a = if c.1 = a then c.2 else m.read a := rfl

/-- An address no entry lists reads as erased. -/
theorem Memory.read_of_not_mem {m : Memory} {a : Nat} (h : ∀ c ∈ m, c.1 ≠ a) : m.read a = erasedByte := by
  induction m with
  | nil => rfl
  | cons c m ih =>
    rw [Memory.read_cons, if_neg (h c (by simp))]
    exact ih fun d hd => h d (by simp [hd])

/-- Reading any byte after listing byte `a` as `v`. -/
theorem Memory.read_insert (m : Memory) (a : Nat) (v : Byte) (x : Nat) :
    (m.insert a v).read x = if x = a then v else m.read x := by
  induction m with
  | nil => simp [Memory.insert, Memory.read_cons, eq_comm]
  | cons c m ih =>
    unfold Memory.insert
    split
    · simp only [Memory.read_cons, eq_comm (a := a)]
    · split
      · rename_i _ hac
        simp only [Memory.read_cons, ← hac, eq_comm (a := a)]
        split_ifs <;> rfl
      · rename_i _ hac
        simp only [Memory.read_cons, ih]
        split_ifs with h1 h2 <;> first | rfl | omega

theorem Memory.wf_cons (c : Host.Cell) (m : Memory) :
    Memory.wf (c :: m) = true ↔ c.2 ≠ erasedByte ∧ (∀ d ∈ m, c.1 < d.1) ∧ m.wf = true := by
  simp [Memory.wf, and_assoc]

/-- Reading any byte of a canonical storage after unlisting byte `a`. -/
theorem Memory.read_erase {m : Memory} (hm : m.wf = true) (a x : Nat) :
    (m.erase a).read x = if x = a then erasedByte else m.read x := by
  induction m with
  | nil => simp [Memory.erase]
  | cons c m ih =>
    obtain ⟨-, hlt, hm⟩ := (Memory.wf_cons c m).1 hm
    unfold Memory.erase
    split_ifs with h1 h2 h2
    · subst h2
      exact Memory.read_of_not_mem fun d hd => by have := hlt d hd; omega
    · rw [Memory.read_cons, if_neg (by omega)]
    · rw [Memory.read_cons, if_neg (by omega), ih hm, if_pos h2]
    · rw [Memory.read_cons, ih hm, if_neg h2, Memory.read_cons]

/-- Read after write, on a canonical storage. -/
theorem Memory.read_write {m : Memory} (hm : m.wf = true) (a : Nat) (v : Byte) (x : Nat) :
    (m.write a v).read x = if x = a then v else m.read x := by
  unfold Memory.write
  split_ifs with hv h h
  · rw [Memory.read_erase hm, if_pos h, hv]
  · rw [Memory.read_erase hm, if_neg h]
  · rw [Memory.read_insert, if_pos h]
  · rw [Memory.read_insert, if_neg h]

/-- Read after write of a byte that is not the erased value, on any storage. -/
theorem Memory.read_write_of_ne (m : Memory) (a : Nat) {v : Byte} (hv : v ≠ erasedByte) (x : Nat) :
    (m.write a v).read x = if x = a then v else m.read x := by
  rw [Memory.write, if_neg hv, Memory.read_insert]

/-- The addresses listed after an insertion. -/
theorem Memory.mem_insert {m : Memory} {a : Nat} {v : Byte} {d : Host.Cell} (h : d ∈ m.insert a v) :
    d = (a, v) ∨ d ∈ m := by
  induction m with
  | nil => simpa [Memory.insert] using h
  | cons c m ih =>
    unfold Memory.insert at h
    split_ifs at h
    · simpa using h
    · simp only [List.mem_cons] at h ⊢; tauto
    · simp only [List.mem_cons] at h ⊢
      rcases h with h | h
      · exact .inr (.inl h)
      · rcases ih h with h | h <;> simp [h]

theorem Memory.mem_erase {m : Memory} {a : Nat} {d : Host.Cell} (h : d ∈ m.erase a) : d ∈ m := by
  induction m with
  | nil => exact h
  | cons c m ih =>
    unfold Memory.erase at h
    split_ifs at h
    · simp [h]
    · simp only [List.mem_cons] at h ⊢; rcases h with h | h <;> simp [h, ih]

/-- Every entry after a write is the entry written or was there before. -/
theorem Memory.mem_write {m : Memory} {a : Nat} {v : Byte} {d : Host.Cell} (h : d ∈ m.write a v) :
    d = (a, v) ∨ d ∈ m := by
  unfold Memory.write at h
  split_ifs at h
  · exact .inr (Memory.mem_erase h)
  · exact Memory.mem_insert h

theorem Memory.insert_wf {m : Memory} (hm : m.wf = true) (a : Nat) {v : Byte} (hv : v ≠ erasedByte) :
    (m.insert a v).wf = true := by
  induction m with
  | nil => simp [Memory.insert, Memory.wf, hv]
  | cons c m ih =>
    obtain ⟨h1, h2, h3⟩ := (Memory.wf_cons c m).1 hm
    unfold Memory.insert
    split_ifs with ha hb
    · refine (Memory.wf_cons _ _).2 ⟨hv, fun d hd => ?_, hm⟩
      rcases List.mem_cons.1 hd with rfl | hd
      · exact ha
      · exact lt_trans ha (h2 d hd)
    · exact (Memory.wf_cons _ _).2 ⟨hv, fun d hd => hb ▸ h2 d hd, h3⟩
    · refine (Memory.wf_cons _ _).2 ⟨h1, fun d hd => ?_, ih h3⟩
      rcases Memory.mem_insert hd with rfl | hd
      · show c.1 < a; omega
      · exact h2 d hd

theorem Memory.erase_wf {m : Memory} (hm : m.wf = true) (a : Nat) : (m.erase a).wf = true := by
  induction m with
  | nil => rfl
  | cons c m ih =>
    obtain ⟨h1, h2, h3⟩ := (Memory.wf_cons c m).1 hm
    unfold Memory.erase
    split_ifs
    · exact h3
    · exact (Memory.wf_cons _ _).2 ⟨h1, fun d hd => h2 d (Memory.mem_erase hd), ih h3⟩

/-- A write keeps the canonical form. -/
theorem Memory.write_wf {m : Memory} (hm : m.wf = true) (a : Nat) (v : Byte) : (m.write a v).wf = true := by
  unfold Memory.write
  split_ifs with hv
  · exact Memory.erase_wf hm a
  · exact Memory.insert_wf hm a hv

/-- The storage after reset has the canonical form. -/
theorem Memory.reset_wf : State.reset.storage.wf = true := rfl

/-- Two canonical storages that read alike are the same data. -/
theorem Memory.eq_of_read_eq {m n : Memory} (hm : m.wf = true) (hn : n.wf = true) (h : ∀ a, m.read a = n.read a) :
    m = n := by
  induction m generalizing n with
  | nil =>
    cases n with
    | nil => rfl
    | cons d n =>
      have h1 := ((Memory.wf_cons d n).1 hn).1
      have h2 := h d.1
      rw [Memory.read_nil, Memory.read_cons, if_pos rfl] at h2
      exact absurd h2.symm h1
  | cons c m ih =>
    obtain ⟨c1, c2, c3⟩ := (Memory.wf_cons c m).1 hm
    cases n with
    | nil =>
      have h2 := h c.1
      rw [Memory.read_nil, Memory.read_cons, if_pos rfl] at h2
      exact absurd h2 c1
    | cons d n =>
      obtain ⟨d1, d2, d3⟩ := (Memory.wf_cons d n).1 hn
      have hkey : c.1 = d.1 := by
        rcases lt_trichotomy c.1 d.1 with hlt | heq | hgt
        · have h2 := h c.1
          rw [Memory.read_cons, if_pos rfl, Memory.read_cons, if_neg (by omega),
            Memory.read_of_not_mem fun e he => by have := d2 e he; omega] at h2
          exact absurd h2 c1
        · exact heq
        · have h2 := h d.1
          rw [Memory.read_cons, if_neg (by omega), Memory.read_cons, if_pos rfl,
            Memory.read_of_not_mem fun e he => by have := c2 e he; omega] at h2
          exact absurd h2.symm d1
      have hval : c.2 = d.2 := by
        have h2 := h c.1
        rwa [Memory.read_cons, if_pos rfl, Memory.read_cons, if_pos hkey.symm] at h2
      have htail : m = n := ih c3 d3 fun a => by
        have h2 := h a
        rw [Memory.read_cons, Memory.read_cons, ← hkey] at h2
        split_ifs at h2 with ha
        · rw [Memory.read_of_not_mem fun e he => by have := c2 e he; omega,
            Memory.read_of_not_mem fun e he => by have := d2 e he; omega]
        · exact h2
      rw [htail, Prod.ext hkey hval]

/-- `MemRead` answers the byte, inside storage. -/
theorem State.memRead_of_lt {s : State} {a : Nat} (h : a < s.cfg.storageSize) : s.memRead a = some (s.storage.read a) :=
  if_pos h

/-- Everything `MemWrite` can do: the byte is inside storage, it is written and recorded, and nothing else changes. -/
theorem State.memWrite_cases {s t : State} {a : Nat} {v : Byte} (h : s.memWrite a v = some t) :
    a < s.cfg.storageSize ∧
      t = { s with storage := s.storage.write a v, storageWrites := s.storageWrites ++ [(a, v)] } := by
  unfold State.memWrite at h
  split_ifs at h with ha
  exact ⟨ha, (Option.some.inj h).symm⟩

/-- `MemWrite` inside storage. -/
theorem State.memWrite_of_lt {s : State} {a : Nat} (h : a < s.cfg.storageSize) (v : Byte) :
    s.memWrite a v =
      some { s with storage := s.storage.write a v, storageWrites := s.storageWrites ++ [(a, v)] } :=
  if_pos h

end Sys2Proof.Machine
end

