-- ==== Sys2Proof/Laws/State.lean ====
section
/-! SUPPORT. One lemma per field per update of `State`: what each update leaves in each field. Each is true by rfl (after
naming the fields of `s`, or by the two buffers, where needed), so that no later proof unfolds an update. -/

namespace Sys2Proof.Machine

@[simp] theorem State.finish_inp (s : State) (st : Status) : (s.finish st).inp = s.inp := rfl
@[simp] theorem State.finish_res (s : State) (st : Status) : (s.finish st).res = s.res := rfl
@[simp] theorem State.finish_sout (s : State) (st : Status) : (s.finish st).sout = s.sout := rfl
@[simp] theorem State.finish_soutLen (s : State) (st : Status) : (s.finish st).soutLen = s.soutLen := rfl
@[simp] theorem State.finish_status (s : State) (st : Status) : (s.finish st).status = st.code := rfl
@[simp] theorem State.finish_wireOut (s : State) (st : Status) : (s.finish st).wireOut = s.wireOut := rfl
@[simp] theorem State.finish_wireOutCount (s : State) (st : Status) : (s.finish st).wireOutCount = s.wireOutCount := rfl
@[simp] theorem State.finish_wireOutDest (s : State) (st : Status) : (s.finish st).wireOutDest = s.wireOutDest := rfl
@[simp] theorem State.finish_tx (s : State) (st : Status) : (s.finish st).tx = s.tx := rfl
@[simp] theorem State.finish_rx (s : State) (st : Status) : (s.finish st).rx = s.rx := rfl
@[simp] theorem State.finish_nodeId (s : State) (st : Status) : (s.finish st).nodeId = s.nodeId := rfl
@[simp] theorem State.finish_unitPref (s : State) (st : Status) : (s.finish st).unitPref = s.unitPref := rfl
@[simp] theorem State.finish_failCnt (s : State) (st : Status) : (s.finish st).failCnt = s.failCnt := rfl
@[simp] theorem State.finish_halted (s : State) (st : Status) : (s.finish st).halted = s.halted := rfl
@[simp] theorem State.finish_reqPending (s : State) (st : Status) : (s.finish st).reqPending = s.reqPending := rfl
@[simp] theorem State.finish_storage (s : State) (st : Status) : (s.finish st).storage = s.storage := rfl
@[simp] theorem State.finish_storageWrites (s : State) (st : Status) : (s.finish st).storageWrites = s.storageWrites := rfl
@[simp] theorem State.finish_cfg (s : State) (st : Status) : (s.finish st).cfg = s.cfg := rfl
@[simp] theorem State.finish_script (s : State) (st : Status) : (s.finish st).script = s.script := rfl

@[simp] theorem State.setRes_inp (s : State) (v : Word) : (s.setRes v).inp = s.inp := rfl
@[simp] theorem State.setRes_res (s : State) (v : Word) : (s.setRes v).res = v := rfl
@[simp] theorem State.setRes_sout (s : State) (v : Word) : (s.setRes v).sout = s.sout := rfl
@[simp] theorem State.setRes_soutLen (s : State) (v : Word) : (s.setRes v).soutLen = s.soutLen := rfl
@[simp] theorem State.setRes_status (s : State) (v : Word) : (s.setRes v).status = s.status := rfl
@[simp] theorem State.setRes_wireOut (s : State) (v : Word) : (s.setRes v).wireOut = s.wireOut := rfl
@[simp] theorem State.setRes_wireOutCount (s : State) (v : Word) : (s.setRes v).wireOutCount = s.wireOutCount := rfl
@[simp] theorem State.setRes_wireOutDest (s : State) (v : Word) : (s.setRes v).wireOutDest = s.wireOutDest := rfl
@[simp] theorem State.setRes_tx (s : State) (v : Word) : (s.setRes v).tx = s.tx := rfl
@[simp] theorem State.setRes_rx (s : State) (v : Word) : (s.setRes v).rx = s.rx := rfl
@[simp] theorem State.setRes_nodeId (s : State) (v : Word) : (s.setRes v).nodeId = s.nodeId := rfl
@[simp] theorem State.setRes_unitPref (s : State) (v : Word) : (s.setRes v).unitPref = s.unitPref := rfl
@[simp] theorem State.setRes_failCnt (s : State) (v : Word) : (s.setRes v).failCnt = s.failCnt := rfl
@[simp] theorem State.setRes_halted (s : State) (v : Word) : (s.setRes v).halted = s.halted := rfl
@[simp] theorem State.setRes_reqPending (s : State) (v : Word) : (s.setRes v).reqPending = s.reqPending := rfl
@[simp] theorem State.setRes_storage (s : State) (v : Word) : (s.setRes v).storage = s.storage := rfl
@[simp] theorem State.setRes_storageWrites (s : State) (v : Word) : (s.setRes v).storageWrites = s.storageWrites := rfl
@[simp] theorem State.setRes_cfg (s : State) (v : Word) : (s.setRes v).cfg = s.cfg := rfl
@[simp] theorem State.setRes_script (s : State) (v : Word) : (s.setRes v).script = s.script := rfl

@[simp] theorem State.setSout_inp (s : State) (text : List Byte) : (s.setSout text).inp = s.inp := by
  cases s; rfl
@[simp] theorem State.setSout_res (s : State) (text : List Byte) : (s.setSout text).res = s.res := by
  cases s; rfl
@[simp] theorem State.setSout_sout (s : State) (text : List Byte) : (s.setSout text).sout = port50 text := by
  cases s; rfl
@[simp] theorem State.setSout_soutLen (s : State) (text : List Byte) : (s.setSout text).soutLen = BitVec.ofNat 6 text.length := by
  cases s; rfl
@[simp] theorem State.setSout_status (s : State) (text : List Byte) : (s.setSout text).status = s.status := by
  cases s; rfl
@[simp] theorem State.setSout_wireOut (s : State) (text : List Byte) : (s.setSout text).wireOut = s.wireOut := by
  cases s; rfl
@[simp] theorem State.setSout_wireOutCount (s : State) (text : List Byte) : (s.setSout text).wireOutCount = s.wireOutCount := by
  cases s; rfl
@[simp] theorem State.setSout_wireOutDest (s : State) (text : List Byte) : (s.setSout text).wireOutDest = s.wireOutDest := by
  cases s; rfl
@[simp] theorem State.setSout_tx (s : State) (text : List Byte) : (s.setSout text).tx = s.tx := by
  cases s; rfl
@[simp] theorem State.setSout_rx (s : State) (text : List Byte) : (s.setSout text).rx = s.rx := by
  cases s; rfl
@[simp] theorem State.setSout_nodeId (s : State) (text : List Byte) : (s.setSout text).nodeId = s.nodeId := by
  cases s; rfl
@[simp] theorem State.setSout_unitPref (s : State) (text : List Byte) : (s.setSout text).unitPref = s.unitPref := by
  cases s; rfl
@[simp] theorem State.setSout_failCnt (s : State) (text : List Byte) : (s.setSout text).failCnt = s.failCnt := by
  cases s; rfl
@[simp] theorem State.setSout_halted (s : State) (text : List Byte) : (s.setSout text).halted = s.halted := by
  cases s; rfl
@[simp] theorem State.setSout_reqPending (s : State) (text : List Byte) : (s.setSout text).reqPending = s.reqPending := by
  cases s; rfl
@[simp] theorem State.setSout_storage (s : State) (text : List Byte) : (s.setSout text).storage = s.storage := by
  cases s; rfl
@[simp] theorem State.setSout_storageWrites (s : State) (text : List Byte) : (s.setSout text).storageWrites = s.storageWrites := by
  cases s; rfl
@[simp] theorem State.setSout_cfg (s : State) (text : List Byte) : (s.setSout text).cfg = s.cfg := by
  cases s; rfl
@[simp] theorem State.setSout_script (s : State) (text : List Byte) : (s.setSout text).script = s.script := by
  cases s; rfl

@[simp] theorem State.setInp_inp (s : State) (p : Inputs) : (s.setInp p).inp = p := rfl
@[simp] theorem State.setInp_res (s : State) (p : Inputs) : (s.setInp p).res = s.res := rfl
@[simp] theorem State.setInp_sout (s : State) (p : Inputs) : (s.setInp p).sout = s.sout := rfl
@[simp] theorem State.setInp_soutLen (s : State) (p : Inputs) : (s.setInp p).soutLen = s.soutLen := rfl
@[simp] theorem State.setInp_status (s : State) (p : Inputs) : (s.setInp p).status = s.status := rfl
@[simp] theorem State.setInp_wireOut (s : State) (p : Inputs) : (s.setInp p).wireOut = s.wireOut := rfl
@[simp] theorem State.setInp_wireOutCount (s : State) (p : Inputs) : (s.setInp p).wireOutCount = s.wireOutCount := rfl
@[simp] theorem State.setInp_wireOutDest (s : State) (p : Inputs) : (s.setInp p).wireOutDest = s.wireOutDest := rfl
@[simp] theorem State.setInp_tx (s : State) (p : Inputs) : (s.setInp p).tx = s.tx := rfl
@[simp] theorem State.setInp_rx (s : State) (p : Inputs) : (s.setInp p).rx = s.rx := rfl
@[simp] theorem State.setInp_nodeId (s : State) (p : Inputs) : (s.setInp p).nodeId = s.nodeId := rfl
@[simp] theorem State.setInp_unitPref (s : State) (p : Inputs) : (s.setInp p).unitPref = s.unitPref := rfl
@[simp] theorem State.setInp_failCnt (s : State) (p : Inputs) : (s.setInp p).failCnt = s.failCnt := rfl
@[simp] theorem State.setInp_halted (s : State) (p : Inputs) : (s.setInp p).halted = s.halted := rfl
@[simp] theorem State.setInp_reqPending (s : State) (p : Inputs) : (s.setInp p).reqPending = s.reqPending := rfl
@[simp] theorem State.setInp_storage (s : State) (p : Inputs) : (s.setInp p).storage = s.storage := rfl
@[simp] theorem State.setInp_storageWrites (s : State) (p : Inputs) : (s.setInp p).storageWrites = s.storageWrites := rfl
@[simp] theorem State.setInp_cfg (s : State) (p : Inputs) : (s.setInp p).cfg = s.cfg := rfl
@[simp] theorem State.setInp_script (s : State) (p : Inputs) : (s.setInp p).script = s.script := rfl

@[simp] theorem State.resetEvent_inp (s : State) (p : Inputs) : (s.resetEvent p).inp = p := rfl
@[simp] theorem State.resetEvent_res (s : State) (p : Inputs) : (s.resetEvent p).res = State.reset.res := rfl
@[simp] theorem State.resetEvent_sout (s : State) (p : Inputs) : (s.resetEvent p).sout = State.reset.sout := rfl
@[simp] theorem State.resetEvent_soutLen (s : State) (p : Inputs) : (s.resetEvent p).soutLen = State.reset.soutLen := rfl
@[simp] theorem State.resetEvent_status (s : State) (p : Inputs) : (s.resetEvent p).status = State.reset.status := rfl
@[simp] theorem State.resetEvent_wireOut (s : State) (p : Inputs) : (s.resetEvent p).wireOut = State.reset.wireOut := rfl
@[simp] theorem State.resetEvent_wireOutCount (s : State) (p : Inputs) : (s.resetEvent p).wireOutCount = State.reset.wireOutCount := rfl
@[simp] theorem State.resetEvent_wireOutDest (s : State) (p : Inputs) : (s.resetEvent p).wireOutDest = State.reset.wireOutDest := rfl
@[simp] theorem State.resetEvent_tx (s : State) (p : Inputs) : (s.resetEvent p).tx = State.reset.tx := rfl
@[simp] theorem State.resetEvent_rx (s : State) (p : Inputs) : (s.resetEvent p).rx = State.reset.rx := rfl
@[simp] theorem State.resetEvent_nodeId (s : State) (p : Inputs) : (s.resetEvent p).nodeId = State.reset.nodeId := rfl
@[simp] theorem State.resetEvent_unitPref (s : State) (p : Inputs) : (s.resetEvent p).unitPref = State.reset.unitPref := rfl
@[simp] theorem State.resetEvent_failCnt (s : State) (p : Inputs) : (s.resetEvent p).failCnt = State.reset.failCnt := rfl
@[simp] theorem State.resetEvent_halted (s : State) (p : Inputs) : (s.resetEvent p).halted = State.reset.halted := rfl
@[simp] theorem State.resetEvent_reqPending (s : State) (p : Inputs) : (s.resetEvent p).reqPending = State.reset.reqPending := rfl
@[simp] theorem State.resetEvent_storage (s : State) (p : Inputs) : (s.resetEvent p).storage = s.storage := rfl
@[simp] theorem State.resetEvent_storageWrites (s : State) (p : Inputs) : (s.resetEvent p).storageWrites = s.storageWrites := rfl
@[simp] theorem State.resetEvent_cfg (s : State) (p : Inputs) : (s.resetEvent p).cfg = s.cfg := rfl
@[simp] theorem State.resetEvent_script (s : State) (p : Inputs) : (s.resetEvent p).script = s.script := rfl

@[simp] theorem State.setFb_inp (s : State) (b : Buf) (f : Frame) : (s.setFb b f).inp = s.inp := by
  cases b <;> rfl
@[simp] theorem State.setFb_res (s : State) (b : Buf) (f : Frame) : (s.setFb b f).res = s.res := by
  cases b <;> rfl
@[simp] theorem State.setFb_sout (s : State) (b : Buf) (f : Frame) : (s.setFb b f).sout = s.sout := by
  cases b <;> rfl
@[simp] theorem State.setFb_soutLen (s : State) (b : Buf) (f : Frame) : (s.setFb b f).soutLen = s.soutLen := by
  cases b <;> rfl
@[simp] theorem State.setFb_status (s : State) (b : Buf) (f : Frame) : (s.setFb b f).status = s.status := by
  cases b <;> rfl
@[simp] theorem State.setFb_wireOut (s : State) (b : Buf) (f : Frame) : (s.setFb b f).wireOut = s.wireOut := by
  cases b <;> rfl
@[simp] theorem State.setFb_wireOutCount (s : State) (b : Buf) (f : Frame) : (s.setFb b f).wireOutCount = s.wireOutCount := by
  cases b <;> rfl
@[simp] theorem State.setFb_wireOutDest (s : State) (b : Buf) (f : Frame) : (s.setFb b f).wireOutDest = s.wireOutDest := by
  cases b <;> rfl
@[simp] theorem State.setFb_nodeId (s : State) (b : Buf) (f : Frame) : (s.setFb b f).nodeId = s.nodeId := by
  cases b <;> rfl
@[simp] theorem State.setFb_unitPref (s : State) (b : Buf) (f : Frame) : (s.setFb b f).unitPref = s.unitPref := by
  cases b <;> rfl
@[simp] theorem State.setFb_failCnt (s : State) (b : Buf) (f : Frame) : (s.setFb b f).failCnt = s.failCnt := by
  cases b <;> rfl
@[simp] theorem State.setFb_halted (s : State) (b : Buf) (f : Frame) : (s.setFb b f).halted = s.halted := by
  cases b <;> rfl
@[simp] theorem State.setFb_reqPending (s : State) (b : Buf) (f : Frame) : (s.setFb b f).reqPending = s.reqPending := by
  cases b <;> rfl
@[simp] theorem State.setFb_storage (s : State) (b : Buf) (f : Frame) : (s.setFb b f).storage = s.storage := by
  cases b <;> rfl
@[simp] theorem State.setFb_storageWrites (s : State) (b : Buf) (f : Frame) : (s.setFb b f).storageWrites = s.storageWrites := by
  cases b <;> rfl
@[simp] theorem State.setFb_cfg (s : State) (b : Buf) (f : Frame) : (s.setFb b f).cfg = s.cfg := by
  cases b <;> rfl
@[simp] theorem State.setFb_script (s : State) (b : Buf) (f : Frame) : (s.setFb b f).script = s.script := by
  cases b <;> rfl

@[simp] theorem State.setFb_tx_tx (s : State) (f : Frame) : (s.setFb .tx f).tx = f := rfl
@[simp] theorem State.setFb_tx_rx (s : State) (f : Frame) : (s.setFb .tx f).rx = s.rx := rfl
@[simp] theorem State.setFb_rx_tx (s : State) (f : Frame) : (s.setFb .rx f).tx = s.tx := rfl
@[simp] theorem State.setFb_rx_rx (s : State) (f : Frame) : (s.setFb .rx f).rx = f := rfl

@[simp] theorem State.fb_tx (s : State) : s.fb .tx = s.tx := rfl
@[simp] theorem State.fb_rx (s : State) : s.fb .rx = s.rx := rfl

/-- The frame just written is the frame read back. -/
@[simp] theorem State.fb_setFb (s : State) (b : Buf) (f : Frame) : (s.setFb b f).fb b = f := by
  cases b <;> rfl

/-- Writing one frame leaves the other. -/
theorem State.fb_setFb_of_ne (s : State) {b c : Buf} (f : Frame) (h : c ≠ b) : (s.setFb b f).fb c = s.fb c := by
  cases b <;> cases c <;> first | rfl | exact absurd rfl h

@[simp] theorem State.fb_finish (s : State) (st : Status) (c : Buf) : (s.finish st).fb c = s.fb c := by
  cases c <;> rfl
@[simp] theorem State.fb_setRes (s : State) (v : Word) (c : Buf) : (s.setRes v).fb c = s.fb c := by
  cases c <;> rfl
@[simp] theorem State.fb_setSout (s : State) (text : List Byte) (c : Buf) : (s.setSout text).fb c = s.fb c := by
  cases c <;> simp
@[simp] theorem State.fb_setInp (s : State) (p : Inputs) (c : Buf) : (s.setInp p).fb c = s.fb c := by
  cases c <;> rfl

end Sys2Proof.Machine
end

