-- ==== Sys2Proof/Laws/Ops.lean ====
section
/-! SUPPORT. One lemma per shared operation that says once everything it can do, for the proofs to cite instead of unfolding
it: the completions, the cores of the families, storage, the command port, the step and the host's chaining. -/

namespace Sys2Proof.Machine

/-- `finish(S)` writes `STATUS` alone (R11). -/
theorem State.finish_eq (s : State) (st : Status) : s.finish st = { s with status := st.code } := rfl

/-- `fail(S)` answers the state it was given, with `STATUS` written (R11, R302). -/
theorem State.fail_eq (s : State) (st : Status) : s.fail st = .next { s with status := st.code } := rfl

/-- A read answers `RES` and `OK`, and changes nothing else (R100). -/
theorem State.answer_eq (s : State) (v : Word) : s.answer v = .next { s with res := v, status := 0 } := rfl

/-- A header write changes the selected frame and `STATUS` alone (R100). -/
theorem State.putHeader_eq (s : State) (b : Buf) (f : Frame) :
    s.putHeader b f = .next { s.setFb b f with status := 0 } := rfl

/-- A payload write changes the selected frame and `STATUS` alone (R140). -/
theorem State.putPayload_eq (s : State) (b : Buf) (tag : BitVec 3) (bytes : List Byte) (st : Status) :
    s.putPayload b tag bytes st =
      .next { s.setFb b ((s.fb b).setPayload tag bytes) with status := st.code } := rfl

/-- The bytes of `SIN` that a setter takes are as many as asked for, up to the port's 50 (R78). -/
theorem Inputs.length_sinBytes (p : Inputs) {n : Nat} (h : n ≤ 50) : (p.sinBytes n).length = n := by
  simp [Inputs.sinBytes, h]

/-- What a string or custom setter does, by the length it is given (R141, R147). -/
theorem State.putSin_eq (s : State) (b : Buf) (tag : PayloadTag) :
    s.putSin b tag =
      if 50 < s.inp.sinLen.toNat then s.fail .badOperand
      else if 25 < s.inp.sinLen.toNat then s.putPayload b tag.code (s.inp.sinBytes 25) .truncated
      else s.putPayload b tag.code (s.inp.sinBytes s.inp.sinLen.toNat) .ok := by
  show (if 50 < s.inp.sinLen.toNat then s.fail .badOperand
    else s.putPayload b tag.code (s.inp.sinBytes (min s.inp.sinLen.toNat 25))
      (if 25 < s.inp.sinLen.toNat then .truncated else .ok)) = _
  by_cases h : 25 < s.inp.sinLen.toNat
  · simp only [h, if_true, Nat.min_eq_right h.le]
  · simp only [h, if_false, Nat.min_eq_left (not_lt.1 h)]

/-- `CHECK(b, tag, size)` in numbers (R170). -/
theorem Frame.holds_iff (f : Frame) (tag : PayloadTag) (size : Nat) :
    f.holds tag size = true ↔ f[4].toNat / 32 = tag.code.toNat ∧ size ≤ f[3].toNat / 8 := by
  rw [Frame.holds, Bool.and_eq_true, beq_iff_eq, decide_eq_true_iff, ← Frame.ptype_toNat, ← Frame.len_eq,
    BitVec.toNat_inj]

/-- What a scalar getter does (R170). -/
theorem State.getTyped_eq (s : State) (b : Buf) (tag : PayloadTag) (size : Nat) (v : Word) :
    s.getTyped b tag size v =
      .next (if (s.fb b).holds tag size then { s with res := v, status := 0 } else { s with res := 0, status := 1 }) := by
  unfold State.getTyped
  split_ifs <;> rfl

/-- What the delivery of a text does: it always completes, and `SOUT_LEN` is at most 50 (R182). -/
theorem State.putText_eq (s : State) (text : List Byte) (st : Status) :
    s.putText text st =
      .next (if 50 < text.length then (s.setSout []).finish .outOverflow else (s.setSout text).finish st) := by
  unfold State.putText outMax
  split_ifs <;> rfl

/-- Write-on-change inside storage, for a value that is not the erased one: it completes, byte `a` reads `v` and no
other byte changes, and the write is recorded only where the byte differed (R234, R248). -/
theorem State.persist_spec (s : State) {a : Nat} (ha : a < s.cfg.storageSize) {v : Byte} (hv : v ≠ erasedByte) :
    ∃ m : Memory, s.persist a v = .next { s with
        storage := m
        storageWrites := s.storageWrites ++ (if s.storage.read a = v then [] else [(a, v)])
        status := 0 } ∧
      ∀ x, m.read x = if x = a then v else s.storage.read x := by
  by_cases h : s.storage.read a = v
  · refine ⟨s.storage, ?_, fun x => ?_⟩
    · simp [State.persist, State.memRead_of_lt ha, h]; rfl
    · split_ifs with hx
      · rw [hx, h]
      · rfl
  · refine ⟨s.storage.write a v, ?_, Memory.read_write_of_ne _ _ hv⟩
    simp [State.persist, State.memRead_of_lt ha, h, State.memWrite_of_lt ha]; rfl

/-- If write-on-change answers a state, it is one of two: nothing written, or the one byte (R234, R248). -/
theorem State.persist_cases {s t : State} {a : Nat} {v : Byte} (h : s.persist a v = .next t) :
    a < s.cfg.storageSize ∧
      (s.storage.read a = v ∧ t = s.finish .ok ∨
        s.storage.read a ≠ v ∧
          t = State.finish { s with storage := s.storage.write a v, storageWrites := s.storageWrites ++ [(a, v)] } .ok) := by
  unfold State.persist at h
  by_cases ha : a < s.cfg.storageSize
  · refine ⟨ha, ?_⟩
    rw [State.memRead_of_lt ha] at h
    simp only [State.memWrite_of_lt ha] at h
    split_ifs at h with hv
    · exact .inl ⟨hv, (by injection h with h; exact h.symm)⟩
    · exact .inr ⟨hv, (by injection h with h; exact h.symm)⟩
  · rw [State.memRead, if_neg ha] at h
    cases h

/-- If an adoption answers a state, one of four things happened: refused while halted, refused while assigned, the
halt entered, or the address taken and persisted on change (R248). -/
theorem State.adopt_cases {s t : State} {a : Byte} (h : s.adopt a = .next t) :
    s.halted = true ∧ t = s.finish .halted ∨
    s.halted = false ∧ s.nodeId ≠ autoAddress ∧ t = s.finish .illegalState ∨
    s.halted = false ∧ s.nodeId = autoAddress ∧ a = autoAddress ∧
      t = State.finish { s with halted := true, reqPending := false } .halted ∨
    s.halted = false ∧ s.nodeId = autoAddress ∧ a ≠ autoAddress ∧
      State.persist { s with nodeId := a, reqPending := false } s.cfg.eeNodeId a = .next t := by
  unfold State.adopt at h
  split_ifs at h with h1 h2 h3
  · exact .inl ⟨h1, by injection h with h; exact h.symm⟩
  · exact .inr (.inl ⟨by simpa using h1, h2, by injection h with h; exact h.symm⟩)
  · exact .inr (.inr (.inl ⟨by simpa using h1, not_not.1 h2, h3, by injection h with h; exact h.symm⟩))
  · exact .inr (.inr (.inr ⟨by simpa using h1, not_not.1 h2, h3, h⟩))

/-- If an update of the unit preference answers a state, the register holds the value, and storage was written only where
the value compared with differed (R249). -/
theorem State.updateUnit_cases {s t : State} {v : Byte} (h : s.updateUnit v = .next t) :
    s.currentUnit = some v ∧ t = State.finish { s with unitPref := v } .ok ∨
    ∃ cur, s.currentUnit = some cur ∧ cur ≠ v ∧ s.cfg.eeUnit < s.cfg.storageSize ∧
      t = State.finish { s with
        unitPref := v, storage := s.storage.write s.cfg.eeUnit v,
        storageWrites := s.storageWrites ++ [(s.cfg.eeUnit, v)] } .ok := by
  unfold State.updateUnit at h
  split at h
  · cases h
  · rename_i cur hcur
    split_ifs at h with hv
    · exact .inl ⟨hv ▸ hcur, by injection h with h; exact h.symm⟩
    · split at h
      · cases h
      · rename_i u hu
        obtain ⟨hlt, rfl⟩ := State.memWrite_cases hu
        exact .inr ⟨cur, hcur, hv, hlt, by injection h with h; exact h.symm⟩

/-- The value an update is compared with, inside storage (R249). -/
theorem State.currentUnit_of_lt {s : State} (h : s.cfg.eeUnit < s.cfg.storageSize) :
    s.currentUnit = some (match s.cfg.cmpSource with
      | .storage => s.storage.read s.cfg.eeUnit
      | .register => s.unitPref) := by
  unfold State.currentUnit
  cases s.cfg.cmpSource with
  | storage => exact State.memRead_of_lt h
  | register => rfl

/-- What a well-formed configuration gives (R9, R57, R76). -/
theorem Config.wf_iff (c : Config) :
    c.wf = true ↔ 2 ≤ c.storageSize ∧ c.eeNodeId < c.storageSize ∧ c.eeUnit < c.storageSize ∧
      c.eeNodeId ≠ c.eeUnit ∧ c.codes.Nodup := by
  simp [Config.wf, Config.sizeOk, Config.offsetsInside, Config.offsetsDistinct, Config.codesDistinct, and_assoc]

theorem Config.eeNodeId_lt {c : Config} (h : c.wf = true) : c.eeNodeId < c.storageSize := ((Config.wf_iff c).1 h).2.1

theorem Config.eeUnit_lt {c : Config} (h : c.wf = true) : c.eeUnit < c.storageSize := ((Config.wf_iff c).1 h).2.2.1

/-- The command port: a decoded command runs, any other writes `ILLEGAL_OP` alone (R81, R82). -/
theorem runCommand_cases (s : State) :
    (∃ i, decode s.inp.cmd = .ok i ∧ runCommand s = exec i s) ∨
      (∃ e, decode s.inp.cmd = .error e ∧ runCommand s = s.fail .illegalOp) := by
  unfold runCommand
  cases h : decode s.inp.cmd with
  | ok i => exact .inl ⟨i, rfl, rfl⟩
  | error e => exact .inr ⟨e, rfl, rfl⟩

@[simp] theorem hostAction_issue (s : State) : hostAction .issue s = runCommand s := rfl

@[simp] theorem hostAction_reset (s : State) (p : Inputs) : hostAction (.reset p) s = .next (s.resetEvent p) := rfl

/-- Everything one host action can do: perform the command, reset, or write the host's own registers (R24). -/
theorem hostAction_cases {a : HostAction} {s t : State} (h : hostAction a s = .next t) :
    a = .issue ∧ runCommand s = .next t ∨ (∃ p, a = .reset p ∧ t = s.resetEvent p) ∨
      (a ≠ .issue ∧ (∀ p, a ≠ .reset p) ∧ ∃ p, t = s.setInp p) := by
  cases a with
  | issue => exact .inl ⟨rfl, h⟩
  | reset p => exact .inr (.inl ⟨p, rfl, by injection h with h; exact h.symm⟩)
  | _ =>
    refine .inr (.inr ⟨by simp, by simp, ?_⟩)
    injection h with h
    exact ⟨_, h.symm⟩

/-- Everything one step can do (R20, R57): the configuration is well formed, and either the host is idle and nothing changes,
or its next action takes place. -/
theorem step_cases {s t : State} (h : step s = .next t) :
    s.cfg.wf = true ∧
      (s.script = [] ∧ t = s ∨
        ∃ a rest, s.script = a :: rest ∧ hostAction a { s with script := rest } = .next t) := by
  unfold step at h
  split_ifs at h with hc
  refine ⟨hc, ?_⟩
  split at h
  · rename_i hs
    exact .inl ⟨hs, by injection h with h; exact h.symm⟩
  · rename_i a rest hs
    exact .inr ⟨a, rest, hs, h⟩

/-- The step of a well-formed machine whose host acts next. -/
theorem step_of_cons {s : State} {a : HostAction} {rest : List HostAction} (hc : s.cfg.wf = true)
    (hs : s.script = a :: rest) : step s = hostAction a { s with script := rest } := by
  unfold step
  rw [if_pos hc, hs]

@[simp] theorem hostActions_nil (s : State) : hostActions [] s = .next s := rfl

/-- Actions in turn: the first, then the rest from where it left the machine. -/
theorem hostActions_cons_of_next {a : HostAction} {rest : List HostAction} {s t : State} (h : hostAction a s = .next t) :
    hostActions (a :: rest) s = hostActions rest t := by
  simp only [hostActions, h]

/-- If actions in turn answer a state, the first answered one and the rest went on from there. -/
theorem hostActions_cons_cases {a : HostAction} {rest : List HostAction} {s t : State}
    (h : hostActions (a :: rest) s = .next t) : ∃ u, hostAction a s = .next u ∧ hostActions rest u = .next t := by
  unfold hostActions at h
  split at h
  · exact ⟨_, by assumption, h⟩
  · cases h
  · cases h

@[simp] theorem NodeOut.andThen_next (n : Node) (f : Node → NodeOut) : NodeOut.andThen (.next n) f = f n := rfl

/-- If one procedure after another answers a node, the first answered one and the second went on from there. -/
theorem NodeOut.andThen_cases {o : NodeOut} {f : Node → NodeOut} {m : Node} (h : o.andThen f = .next m) :
    ∃ n, o = .next n ∧ f n = .next m := by
  cases o with
  | next n => exact ⟨n, rfl, h⟩
  | fault r => cases h
  | refused r => cases h

/-- The rest of a procedure runs where the device has not restarted (R274). -/
theorem NodeOut.unlessRestarting_next {n : Node} (h : n.report ≠ .restarting) (f : Node → NodeOut) :
    NodeOut.unlessRestarting (.next n) f = f n := by
  simp [NodeOut.unlessRestarting, h]

/-- If a procedure and its rest answer a node, the first answered one, and it restarted or the rest went on from there. -/
theorem NodeOut.unlessRestarting_cases {o : NodeOut} {f : Node → NodeOut} {m : Node}
    (h : o.unlessRestarting f = .next m) :
    ∃ n, o = .next n ∧ (n.report = .restarting ∧ m = n ∨ n.report ≠ .restarting ∧ f n = .next m) := by
  obtain ⟨n, hn, hf⟩ := NodeOut.andThen_cases h
  refine ⟨n, hn, ?_⟩
  split_ifs at hf with hr
  · exact .inl ⟨hr, by injection hf with hf; exact hf.symm⟩
  · exact .inr ⟨hr, hf⟩

/-- Each byte of a port after the host has written its first bytes (R84). -/
theorem getElem_overwrite {n : Nat} (v : Vector Byte n) (bytes : List Byte) (j : Nat) (h : j < n) :
    (overwrite v bytes)[j] = if j < bytes.length then bytes.getD j 0 else v[j] := by
  simp only [overwrite, Vector.getElem_ofFn]
  split <;> simp_all

/-- Two runs of actions, one after the other. -/
theorem hostActions_append {as bs : List HostAction} {s t : State} (h : hostActions as s = .next t) :
    hostActions (as ++ bs) s = hostActions bs t := by
  induction as generalizing s with
  | nil => injection h with h; rw [h]; rfl
  | cons a as ih =>
    obtain ⟨u, hu, hr⟩ := hostActions_cons_cases h
    rw [List.cons_append, hostActions_cons_of_next hu]
    exact ih hr

/-- If the host's actions answer a node, the block answered a state and nothing else of the node changed. -/
theorem Node.act_cases {n m : Node} {actions : List HostAction} (h : n.act actions = .next m) :
    ∃ s, hostActions actions n.dev = .next s ∧ m = { n with dev := s } := by
  unfold Node.act at h
  split at h
  · exact ⟨_, by assumption, by injection h with h; exact h.symm⟩
  · cases h
  · cases h

end Sys2Proof.Machine
end

