-- ==== Sys2Proof/Laws/PerInstr.lean ====
section
/-! SUPPORT. The family `EncodesLegally`, made per instruction: the word of every operation passes the three checks of
spec/30_encoding.md R81, and its low byte is the operation's opcode (R70, R80). -/

namespace Sys2Proof.Laws.EncodesLegally

/-- The encoded word is legal and carries the opcode of the table. -/
def Statement (i : Instr) : Prop := legalWord (encode i) = true ∧ opField (encode i) = opcode i

theorem nop : Statement .nop := ⟨rfl, rfl⟩
theorem getLast (b : Buf) : Statement (.getLast b) := by cases b <;> exact ⟨rfl, rfl⟩
theorem getSender (b : Buf) : Statement (.getSender b) := by cases b <;> exact ⟨rfl, rfl⟩
theorem getDest (b : Buf) : Statement (.getDest b) := by cases b <;> exact ⟨rfl, rfl⟩
theorem getVersion (b : Buf) : Statement (.getVersion b) := by cases b <;> exact ⟨rfl, rfl⟩
theorem getSigned (b : Buf) : Statement (.getSigned b) := by cases b <;> exact ⟨rfl, rfl⟩
theorem getLength (b : Buf) : Statement (.getLength b) := by cases b <;> exact ⟨rfl, rfl⟩
theorem getCommand (b : Buf) : Statement (.getCommand b) := by cases b <;> exact ⟨rfl, rfl⟩
theorem getReqack (b : Buf) : Statement (.getReqack b) := by cases b <;> exact ⟨rfl, rfl⟩
theorem getAck (b : Buf) : Statement (.getAck b) := by cases b <;> exact ⟨rfl, rfl⟩
theorem getPtype (b : Buf) : Statement (.getPtype b) := by cases b <;> exact ⟨rfl, rfl⟩
theorem getType (b : Buf) : Statement (.getType b) := by cases b <;> exact ⟨rfl, rfl⟩
theorem getSensor (b : Buf) : Statement (.getSensor b) := by cases b <;> exact ⟨rfl, rfl⟩
theorem setLast (b : Buf) : Statement (.setLast b) := by cases b <;> exact ⟨rfl, rfl⟩
theorem setSender (b : Buf) : Statement (.setSender b) := by cases b <;> exact ⟨rfl, rfl⟩
theorem setDest (b : Buf) : Statement (.setDest b) := by cases b <;> exact ⟨rfl, rfl⟩
theorem setVersion (b : Buf) : Statement (.setVersion b) := by cases b <;> exact ⟨rfl, rfl⟩
theorem setSigned (b : Buf) : Statement (.setSigned b) := by cases b <;> exact ⟨rfl, rfl⟩
theorem setLength (b : Buf) : Statement (.setLength b) := by cases b <;> exact ⟨rfl, rfl⟩
theorem setCommand (b : Buf) : Statement (.setCommand b) := by cases b <;> exact ⟨rfl, rfl⟩
theorem setReqack (b : Buf) : Statement (.setReqack b) := by cases b <;> exact ⟨rfl, rfl⟩
theorem setAck (b : Buf) : Statement (.setAck b) := by cases b <;> exact ⟨rfl, rfl⟩
theorem setPtype (b : Buf) : Statement (.setPtype b) := by cases b <;> exact ⟨rfl, rfl⟩
theorem setType (b : Buf) : Statement (.setType b) := by cases b <;> exact ⟨rfl, rfl⟩
theorem setSensor (b : Buf) : Statement (.setSensor b) := by cases b <;> exact ⟨rfl, rfl⟩
theorem setString (b : Buf) : Statement (.setString b) := by cases b <;> exact ⟨rfl, rfl⟩
theorem setByte (b : Buf) : Statement (.setByte b) := by cases b <;> exact ⟨rfl, rfl⟩
theorem setInt16 (b : Buf) : Statement (.setInt16 b) := by cases b <;> exact ⟨rfl, rfl⟩
theorem setUint16 (b : Buf) : Statement (.setUint16 b) := by cases b <;> exact ⟨rfl, rfl⟩
theorem setLong32 (b : Buf) : Statement (.setLong32 b) := by cases b <;> exact ⟨rfl, rfl⟩
theorem setUlong32 (b : Buf) : Statement (.setUlong32 b) := by cases b <;> exact ⟨rfl, rfl⟩
theorem setCustom (b : Buf) : Statement (.setCustom b) := by cases b <;> exact ⟨rfl, rfl⟩
theorem setFloat32 (b : Buf) : Statement (.setFloat32 b) := by cases b <;> exact ⟨rfl, rfl⟩
theorem setPresentation (b : Buf) : Statement (.setPresentation b) := by cases b <;> exact ⟨rfl, rfl⟩
theorem getByte (b : Buf) : Statement (.getByte b) := by cases b <;> exact ⟨rfl, rfl⟩
theorem getInt16 (b : Buf) : Statement (.getInt16 b) := by cases b <;> exact ⟨rfl, rfl⟩
theorem getUint16 (b : Buf) : Statement (.getUint16 b) := by cases b <;> exact ⟨rfl, rfl⟩
theorem getLong32 (b : Buf) : Statement (.getLong32 b) := by cases b <;> exact ⟨rfl, rfl⟩
theorem getUlong32 (b : Buf) : Statement (.getUlong32 b) := by cases b <;> exact ⟨rfl, rfl⟩
theorem getFloat32 (b : Buf) : Statement (.getFloat32 b) := by cases b <;> exact ⟨rfl, rfl⟩
theorem getPrecision (b : Buf) : Statement (.getPrecision b) := by cases b <;> exact ⟨rfl, rfl⟩
theorem getPresentation (b : Buf) : Statement (.getPresentation b) := by cases b <;> exact ⟨rfl, rfl⟩
theorem getString (b : Buf) : Statement (.getString b) := by cases b <;> exact ⟨rfl, rfl⟩
theorem getHex (b : Buf) : Statement (.getHex b) := by cases b <;> exact ⟨rfl, rfl⟩
theorem getRaw (b : Buf) : Statement (.getRaw b) := by cases b <;> exact ⟨rfl, rfl⟩
theorem loadHex (b : Buf) : Statement (.loadHex b) := by cases b <;> exact ⟨rfl, rfl⟩
theorem wireDecode : Statement .wireDecode := ⟨rfl, rfl⟩
theorem wireEncode : Statement .wireEncode := ⟨rfl, rfl⟩
theorem frameCopy : Statement .frameCopy := ⟨rfl, rfl⟩
theorem buildAck : Statement .buildAck := ⟨rfl, rfl⟩
theorem idLoad : Statement .idLoad := ⟨rfl, rfl⟩
theorem cfgLoad : Statement .cfgLoad := ⟨rfl, rfl⟩
theorem idAdopt : Statement .idAdopt := ⟨rfl, rfl⟩
theorem idSetStatic : Statement .idSetStatic := ⟨rfl, rfl⟩
theorem cfgUpdate : Statement .cfgUpdate := ⟨rfl, rfl⟩
theorem idTxCheck : Statement .idTxCheck := ⟨rfl, rfl⟩
theorem txResult : Statement .txResult := ⟨rfl, rfl⟩
theorem getNodeId : Statement .getNodeId := ⟨rfl, rfl⟩
theorem getUnitPref : Statement .getUnitPref := ⟨rfl, rfl⟩
theorem getFailCnt : Statement .getFailCnt := ⟨rfl, rfl⟩
theorem getIdState : Statement .getIdState := ⟨rfl, rfl⟩
theorem rxClassify : Statement .rxClassify := ⟨rfl, rfl⟩
theorem idAdoptRx : Statement .idAdoptRx := ⟨rfl, rfl⟩
theorem cfgUpdateRx : Statement .cfgUpdateRx := ⟨rfl, rfl⟩

end Sys2Proof.Laws.EncodesLegally
end

