-- ==== Sys2Proof/Laws/Text.lean ====
section
/-! SUPPORT. The laws of payload values and text: the little-endian values as numbers, the clamp of an overlong read, the text
port after a text is put on it, and hex digits as values. -/

namespace Sys2Proof.Machine

/-- A byte above a value of `8 * n` bits, as numbers. -/
theorem append_byte_toNat {w : Nat} (hi : Byte) (lo : BitVec w) : (hi ++ lo).toNat = hi.toNat * 2 ^ w + lo.toNat := by
  rw [BitVec.toNat_append, ← Nat.shiftLeft_add_eq_or_of_lt lo.isLt, Nat.shiftLeft_eq]

/-- `le16` as a number (R11). -/
theorem le16_toNat (x0 x1 : Byte) : (le16 x0 x1).toNat = x0.toNat + 256 * x1.toNat := by
  rw [le16, append_byte_toNat]; omega

/-- `le32` as a number (R11). -/
theorem le32_toNat (x0 x1 x2 x3 : Byte) :
    (le32 x0 x1 x2 x3).toNat = x0.toNat + 256 * (x1.toNat + 256 * (x2.toNat + 256 * x3.toNat)) := by
  have h0 := x0.isLt
  have h1 := x1.isLt
  have h2 := x2.isLt
  rw [le32, BitVec.toNat_append, BitVec.toNat_append, BitVec.toNat_append, ← Nat.shiftLeft_add_eq_or_of_lt h0,
    ← Nat.shiftLeft_add_eq_or_of_lt h1, ← Nat.shiftLeft_add_eq_or_of_lt h2]
  simp only [Nat.shiftLeft_eq]
  omega

/-- `K(b)` as a number (R170). -/
theorem Frame.clampedLen_eq (f : Frame) : f.clampedLen = min (f[3].toNat / 8) 25 := by
  rw [Frame.clampedLen, Frame.len_eq]; rfl

/-- The status of a clamped read as a code (R170). -/
theorem Frame.clampedStatus_code (f : Frame) : f.clampedStatus.code = if 25 < f[3].toNat / 8 then 3 else 0 := by
  unfold Frame.clampedStatus Frame.overlong
  rw [Frame.len_eq]
  by_cases h : 25 < f[3].toNat / 8 <;> simp [h, maxPayload] <;> rfl

/-- A text on the port changes `SOUT` and `SOUT_LEN` alone (R22). -/
theorem State.setSout_eq (s : State) (text : List Byte) :
    s.setSout text = { s with sout := port50 text, soutLen := BitVec.ofNat 6 text.length } := by
  cases s; rfl

/-- A decimal digit's character as a number (R179). -/
theorem digitChar_toNat {d : Nat} (h : d < 10) : (digitChar d).toNat = 0x30 + d := by
  rw [digitChar, BitVec.toNat_ofNat, Nat.mod_eq_of_lt (by omega)]

/-- Reading a hex digit gives its nibble back (R180, R185). -/
@[simp] theorem hexValue?_hexDigit (d : BitVec 4) : hexValue? (hexDigit d) = some d := by
  revert d; decide

/-- The two nibbles of a byte put together are the byte. -/
theorem nibbles_append (x : Byte) : x.extractLsb' 4 4 ++ x.extractLsb' 0 4 = x := by
  revert x; decide

/-- The hex text of a byte and those after it (R180). -/
theorem hexText_cons (x : Byte) (bytes : List Byte) :
    hexText (x :: bytes) = hexDigit (x.extractLsb' 4 4) :: hexDigit (x.extractLsb' 0 4) :: hexText bytes := rfl

end Sys2Proof.Machine
end

