-- ==== Sys2Proof/Tests/Slice0.lean ====
section
/-! SUPPORT. The model's own tests: every operation's words written out from the table of R80, ill-formed terms for each
check of WellFormed, one-step vectors of spec/95_test_vectors.md (each names its vector) and examples of the rules, and for every
obligation with hypotheses a concrete state that meets them. -/

namespace Sys2Proof.Tests

open Sys2Proof.Machine Sys2Proof.Spec

/-- The word decodes to the operation. -/
def reads (p : CmdWord × Instr) : Bool := (decode p.1).toOption == some p.2

/-- The operation answers a next state that passes the check. -/
def runs (i : Instr) (s : State) (p : State → Bool) : Bool :=
  match exec i s with
  | .next t => p t
  | _ => false

/-- The procedure answers a node that passes the check. -/
def nodeRuns (o : NodeOut) (p : Node → Bool) : Bool :=
  match o with
  | .next n => p n
  | _ => false

/-- The frame with these first bytes, zeros beyond them. -/
def frameOf (bytes : List Byte) : Frame := Vector.ofFn fun j => bytes.getD j.val 0

/-- The state after reset with this TX frame. -/
def txState (bytes : List Byte) : State := { State.reset with tx := frameOf bytes }

/-- The state after reset with this RX frame and address. -/
def rxState (a : Byte) (bytes : List Byte) : State := { State.reset with rx := frameOf bytes, nodeId := a }

/-- With these scalar operands. -/
def withArgs (v : Word) (p : Byte) (s : State) : State := { s with inp := { s.inp with arg0 := v, arg1 := p } }

/-- With this byte string on `SIN`. -/
def withSin (bytes : List Byte) (s : State) : State :=
  { s with inp := { s.inp with sin := port50 bytes, sinLen := BitVec.ofNat 6 bytes.length } }

/-- With this frame on `WIRE_IN`. -/
def withWire (bytes : List Byte) (s : State) : State :=
  { s with inp := { s.inp with
      wireIn := Vector.ofFn fun j => bytes.getD j.val 0, wireInCount := BitVec.ofNat 6 bytes.length } }

/-- With these storage records: the address and the unit preference. -/
def withStored (m : Memory) (s : State) : State := { s with storage := m }

/-- `SOUT` holds exactly this text, with this status. -/
def delivered (text : List Byte) (st : Byte) (t : State) : Bool :=
  t.sout == port50 text && t.soutLen.toNat == text.length && t.status == st

/-- The frame F0 of spec/40_header_fields.md, with its float payload. -/
def f0 : List Byte := [0x05, 0x07, 0x00, 0x2A, 0xE9, 0x00, 0x03, 0xE3, 0xA5, 0xBB, 0x41, 0x02]

/-! Decoding: the words of R80, from the table's opcodes and `CMD = zext_16(BUF) << 8 | OP` (R84). -/

/-- R80, the transfer operations. -/
def transferWords : List (CmdWord × Instr) := [
    (0x0000, .nop), (0x0040, .wireDecode), (0x0041, .wireEncode), (0x0042, .frameCopy), (0x0043, .buildAck)]

theorem test_decode_transfer : transferWords.all reads = true := by decide

/-- R80, the header get operations. -/
def headerGetWords : List (CmdWord × Instr) := [
    (0x0001, .getLast .tx), (0x0101, .getLast .rx), (0x0002, .getSender .tx), (0x0102, .getSender .rx),
    (0x0003, .getDest .tx), (0x0103, .getDest .rx), (0x0004, .getVersion .tx), (0x0104, .getVersion .rx),
    (0x0005, .getSigned .tx), (0x0105, .getSigned .rx), (0x0006, .getLength .tx), (0x0106, .getLength .rx),
    (0x0007, .getCommand .tx), (0x0107, .getCommand .rx), (0x0008, .getReqack .tx), (0x0108, .getReqack .rx),
    (0x0009, .getAck .tx), (0x0109, .getAck .rx), (0x000A, .getPtype .tx), (0x010A, .getPtype .rx),
    (0x000B, .getType .tx), (0x010B, .getType .rx), (0x000C, .getSensor .tx), (0x010C, .getSensor .rx)]

theorem test_decode_header_get : headerGetWords.all reads = true := by decide

/-- R80, the header set operations. -/
def headerSetWords : List (CmdWord × Instr) := [
    (0x0011, .setLast .tx), (0x0111, .setLast .rx), (0x0012, .setSender .tx), (0x0112, .setSender .rx),
    (0x0013, .setDest .tx), (0x0113, .setDest .rx), (0x0014, .setVersion .tx), (0x0114, .setVersion .rx),
    (0x0015, .setSigned .tx), (0x0115, .setSigned .rx), (0x0016, .setLength .tx), (0x0116, .setLength .rx),
    (0x0017, .setCommand .tx), (0x0117, .setCommand .rx), (0x0018, .setReqack .tx), (0x0118, .setReqack .rx),
    (0x0019, .setAck .tx), (0x0119, .setAck .rx), (0x001A, .setPtype .tx), (0x011A, .setPtype .rx),
    (0x001B, .setType .tx), (0x011B, .setType .rx), (0x001C, .setSensor .tx), (0x011C, .setSensor .rx)]

theorem test_decode_header_set : headerSetWords.all reads = true := by decide

/-- R80, the payload set operations. -/
def payloadSetWords : List (CmdWord × Instr) := [
    (0x0020, .setString .tx), (0x0120, .setString .rx), (0x0021, .setByte .tx), (0x0121, .setByte .rx),
    (0x0022, .setInt16 .tx), (0x0122, .setInt16 .rx), (0x0023, .setUint16 .tx), (0x0123, .setUint16 .rx),
    (0x0024, .setLong32 .tx), (0x0124, .setLong32 .rx), (0x0025, .setUlong32 .tx), (0x0125, .setUlong32 .rx),
    (0x0026, .setCustom .tx), (0x0126, .setCustom .rx), (0x0027, .setFloat32 .tx), (0x0127, .setFloat32 .rx),
    (0x0028, .setPresentation .tx), (0x0128, .setPresentation .rx)]

theorem test_decode_payload_set : payloadSetWords.all reads = true := by decide

/-- R80, the payload get operations. -/
def payloadGetWords : List (CmdWord × Instr) := [
    (0x0031, .getByte .tx), (0x0131, .getByte .rx), (0x0032, .getInt16 .tx), (0x0132, .getInt16 .rx),
    (0x0033, .getUint16 .tx), (0x0133, .getUint16 .rx), (0x0034, .getLong32 .tx), (0x0134, .getLong32 .rx),
    (0x0035, .getUlong32 .tx), (0x0135, .getUlong32 .rx), (0x0037, .getFloat32 .tx), (0x0137, .getFloat32 .rx),
    (0x0038, .getPrecision .tx), (0x0138, .getPrecision .rx), (0x0039, .getPresentation .tx),
    (0x0139, .getPresentation .rx), (0x003A, .getString .tx), (0x013A, .getString .rx), (0x003B, .getHex .tx),
    (0x013B, .getHex .rx), (0x003C, .getRaw .tx), (0x013C, .getRaw .rx), (0x003D, .loadHex .tx),
    (0x013D, .loadHex .rx)]

theorem test_decode_payload_get : payloadGetWords.all reads = true := by decide

/-- R80, the identity operations. -/
def identityWords : List (CmdWord × Instr) := [
    (0x0050, .idLoad), (0x0051, .cfgLoad), (0x0052, .idAdopt), (0x0053, .idSetStatic), (0x0054, .cfgUpdate),
    (0x0055, .idTxCheck), (0x0056, .txResult), (0x0057, .getNodeId), (0x0058, .getUnitPref), (0x0059, .getFailCnt),
    (0x005A, .getIdState), (0x005B, .rxClassify), (0x005C, .idAdoptRx), (0x005D, .cfgUpdateRx)]

theorem test_decode_identity : identityWords.all reads = true := by decide

/-- The table numbering of a word is the word: R70's one 16-bit word, bit 0 first. -/
theorem test_decodeTableWord : decodeTableWord 16 0x0122 = some (.setInt16 .rx) ∧ decodeTableWord 16 0x0140 = none := by
  decide

/-! WellFormed: an ill-formed term for each check, refused by that check and no other. -/

/-- R82: reserved bits set. -/
theorem test_wellformed_reservedClear :
    reservedClear 0x8001 = false ∧ opcodeAssigned 0x8001 = true ∧ bufferAllowed 0x8001 = true ∧
      legalWord 0x8001 = false := by
  decide

/-- R82: an unassigned opcode. -/
theorem test_wellformed_opcodeAssigned :
    opcodeAssigned 0x000D = false ∧ reservedClear 0x000D = true ∧ bufferAllowed 0x000D = true ∧
      legalWord 0x000D = false := by
  decide

/-- R82: `CMD[8] = 1` for an operation with a fixed buffer. -/
theorem test_wellformed_bufferAllowed :
    bufferAllowed 0x0140 = false ∧ reservedClear 0x0140 = true ∧ opcodeAssigned 0x0140 = true ∧
      legalWord 0x0140 = false := by
  decide

/-- The default configuration passes every check. -/
theorem test_wellformed_standard : Config.standard.wf = true := by decide

/-- R9: storage smaller than 2 bytes. -/
theorem test_wellformed_sizeOk :
    Config.sizeOk { Config.standard with storageSize := 1 } = false ∧
      Config.wf { Config.standard with storageSize := 1 } = false := by decide

/-- R57: an offset outside storage. -/
theorem test_wellformed_offsetsInside :
    Config.offsetsInside { Config.standard with eeUnit := 2 } = false ∧
      Config.wf { Config.standard with eeUnit := 2 } = false := by decide

/-- R57: the two offsets coincide. -/
theorem test_wellformed_offsetsDistinct :
    Config.offsetsDistinct { Config.standard with eeUnit := 0 } = false ∧
      Config.wf { Config.standard with eeUnit := 0 } = false := by decide

/-- R76: two message codes coincide. -/
theorem test_wellformed_codesDistinct :
    Config.codesDistinct { Config.standard with iTime := 6 } = false ∧
      Config.wf { Config.standard with iTime := 6 } = false := by decide

/-! One step of each operation. -/

/-- F0, R101. -/
theorem test_getLast : runs (.getLast .tx) (txState f0) (fun t => t.res == 5 && t.status == 0) = true := by decide

/-- F0, R103. -/
theorem test_getDest : runs (.getDest .tx) (txState f0) (fun t => t.res == 0 && t.status == 0) = true := by decide

/-- F0, R104. -/
theorem test_getVersion : runs (.getVersion .tx) (txState f0) (fun t => t.res == 2 && t.status == 0) = true := by decide

/-- F0, R105. -/
theorem test_getSigned : runs (.getSigned .tx) (txState f0) (fun t => t.res == 0 && t.status == 0) = true := by decide

/-- F0, R106. -/
theorem test_getLength : runs (.getLength .tx) (txState f0) (fun t => t.res == 5 && t.status == 0) = true := by decide

/-- F0, R107. -/
theorem test_getCommand : runs (.getCommand .tx) (txState f0) (fun t => t.res == 1 && t.status == 0) = true := by decide

/-- F0, R108. -/
theorem test_getReqack : runs (.getReqack .tx) (txState f0) (fun t => t.res == 1 && t.status == 0) = true := by decide

/-- F0, R109. -/
theorem test_getAck : runs (.getAck .tx) (txState f0) (fun t => t.res == 0 && t.status == 0) = true := by decide

/-- F0, R110. -/
theorem test_getPtype : runs (.getPtype .tx) (txState f0) (fun t => t.res == 7 && t.status == 0) = true := by decide

/-- F0, R111. -/
theorem test_getType : runs (.getType .tx) (txState f0) (fun t => t.res == 0 && t.status == 0) = true := by decide

/-- F0, R112. -/
theorem test_getSensor : runs (.getSensor .tx) (txState f0) (fun t => t.res == 3 && t.status == 0) = true := by decide

/-- spec/95_test_vectors.md V-H2. -/
theorem test_getSender :
    runs (.getSender .rx) (rxState 0xFF f0) (fun t => t.res == 7 && t.status == 0) = true := by decide

/-- spec/95_test_vectors.md V-H3. -/
theorem test_setVersion :
    runs (.setVersion .tx) (withArgs 7 0 (txState f0)) (fun t => t.tx[3] == 0x2B) = true := by decide

/-- spec/95_test_vectors.md V-H4. -/
theorem test_setSigned :
    runs (.setSigned .tx) (withArgs 1 0 (txState f0)) (fun t => t.tx[3] == 0x2E) = true := by decide

/-- spec/95_test_vectors.md V-H5. -/
theorem test_setSigned_low_bit :
    runs (.setSigned .tx) (withArgs 2 0 (txState f0)) (fun t => t.tx[3] == 0x2A) = true := by decide

/-- spec/95_test_vectors.md V-H6. -/
theorem test_setLength :
    runs (.setLength .tx) (withArgs 31 0 (txState f0)) (fun t => t.tx == (frameOf f0).set 3 0xFA) = true := by decide

/-- spec/95_test_vectors.md V-H7. -/
theorem test_setLength_wide :
    runs (.setLength .tx) (withArgs 0x20 0 (txState f0)) (fun t => t.tx[3] == 0x02) = true := by decide

/-- spec/95_test_vectors.md V-H8. -/
theorem test_setCommand :
    runs (.setCommand .tx) (withArgs 0xF 0 (txState f0)) (fun t => t.tx[4] == 0xEF) = true := by decide

/-- spec/95_test_vectors.md V-H9. -/
theorem test_setReqack :
    runs (.setReqack .tx) (withArgs 0 0 (txState f0)) (fun t => t.tx[4] == 0xE1) = true := by decide

/-- spec/95_test_vectors.md V-H10. -/
theorem test_setAck : runs (.setAck .tx) (withArgs 1 0 (txState f0)) (fun t => t.tx[4] == 0xF9) = true := by decide

/-- R122. -/
theorem test_setPtype : runs (.setPtype .tx) (withArgs 2 0 (txState f0)) (fun t => t.tx[4] == 0x49) = true := by decide

/-- spec/95_test_vectors.md V-H13. -/
theorem test_setLast :
    runs (.setLast .rx) (withArgs 0x1FF 0 (txState f0))
      (fun t => t.rx[0] == 0xFF && t.tx == frameOf f0) = true := by
  decide

/-- R114. -/
theorem test_setSender :
    runs (.setSender .tx) (withArgs 9 0 (txState f0)) (fun t => t.tx == (frameOf f0).set 1 9) = true := by decide

/-- spec/95_test_vectors.md V-H14. -/
theorem test_setDest :
    runs (.setDest .tx) (withArgs 0x1AA 0 (txState f0)) (fun t => t.tx == (frameOf f0).set 2 0xAA) = true := by decide

/-- R123. -/
theorem test_setType :
    runs (.setType .tx) (withArgs 6 0 (txState f0)) (fun t => t.tx == (frameOf f0).set 5 6) = true := by decide

/-- R124. -/
theorem test_setSensor :
    runs (.setSensor .tx) (withArgs 255 0 (txState f0)) (fun t => t.tx == (frameOf f0).set 6 255) = true := by decide

/-- spec/95_test_vectors.md V-S1. -/
theorem test_setString :
    runs (.setString .tx) (withSin [0x32, 0x33, 0x2E, 0x35] State.reset)
      (fun t => t.tx == frameOf [0, 0, 0, 0x20, 0, 0, 0, 0x32, 0x33, 0x2E, 0x35]) = true := by
  decide

/-- spec/95_test_vectors.md V-S4. -/
theorem test_setString_truncated :
    runs (.setString .tx) (withSin (List.replicate 30 0x41) State.reset)
      (fun t => t.tx == frameOf ([0, 0, 0, 0xC8, 0, 0, 0] ++ List.replicate 25 0x41) && t.status == 2) = true := by
  decide

/-- spec/95_test_vectors.md V-S7. -/
theorem test_setByte :
    runs (.setByte .tx) (withArgs 0x1C8 0 State.reset)
      (fun t => t.tx == frameOf [0, 0, 0, 8, 0x20, 0, 0, 0xC8] && t.status == 0) = true := by
  decide

/-- spec/95_test_vectors.md V-S18. -/
theorem test_setByte_over_F0 :
    runs (.setByte .tx) (withArgs 1 0 (txState f0))
      (fun t => t.tx == frameOf [5, 7, 0, 0x0A, 0x29, 0, 3, 1, 0, 0xBB, 0x41, 2]) = true := by
  decide

/-- spec/95_test_vectors.md V-S8. -/
theorem test_setInt16 :
    runs (.setInt16 .tx) (withArgs 0xFFFFFFFE 0 State.reset)
      (fun t => t.tx == frameOf [0, 0, 0, 0x10, 0x40, 0, 0, 0xFE, 0xFF] && t.status == 0) = true := by
  decide

/-- spec/95_test_vectors.md V-S11. -/
theorem test_setUint16 :
    runs (.setUint16 .tx) (withArgs 0x1ABCD 0 State.reset)
      (fun t => t.tx == frameOf [0, 0, 0, 0x10, 0x60, 0, 0, 0xCD, 0xAB] && t.status == 0) = true := by
  decide

/-- spec/95_test_vectors.md V-S12. -/
theorem test_setLong32 :
    runs (.setLong32 .tx) (withArgs 0x80000000 0 State.reset)
      (fun t => t.tx == frameOf [0, 0, 0, 0x20, 0x80, 0, 0, 0, 0, 0, 0x80] && t.status == 0) = true := by
  decide

/-- spec/95_test_vectors.md V-S13. -/
theorem test_setUlong32 :
    runs (.setUlong32 .tx) (withArgs 0xFFFFFFFF 0 State.reset)
      (fun t => t.tx == frameOf [0, 0, 0, 0x20, 0xA0, 0, 0, 0xFF, 0xFF, 0xFF, 0xFF] && t.status == 0) = true := by
  decide

/-- spec/95_test_vectors.md V-S14. -/
theorem test_setCustom :
    runs (.setCustom .tx) (withSin [] (txState f0))
      (fun t => t.tx == frameOf [5, 7, 0, 2, 0xC9, 0, 3, 0, 0xA5, 0xBB, 0x41, 2]) = true := by
  decide

/-- R147. -/
theorem test_setCustom_refused :
    runs (.setCustom .tx) (withSin (List.replicate 51 1) (txState f0))
      (fun t => t.tx == frameOf f0 && t.status == 9) = true := by
  decide

/-- spec/95_test_vectors.md V-S16. -/
theorem test_setFloat32 :
    runs (.setFloat32 .tx) (withArgs 0x7FC00001 3 State.reset)
      (fun t => t.tx == frameOf [0, 0, 0, 0x28, 0xE0, 0, 0, 1, 0, 0xC0, 0x7F, 3] && t.status == 0) = true := by
  decide

/-- spec/95_test_vectors.md V-S17. -/
theorem test_setPresentation :
    runs (.setPresentation .tx) (withArgs 0x14 6 State.reset)
      (fun t => t.tx == frameOf [0, 0, 0, 0x10, 0xC0, 0, 0, 0x14, 6] && t.status == 0) = true := by
  decide

/-- spec/95_test_vectors.md V-G1. -/
theorem test_getByte :
    runs (.getByte .tx) (txState [0, 0, 0, 8, 0x20, 0, 0, 0xC8])
      (fun t => t.res == 200 && t.status == 0) = true := by
  decide

/-- spec/95_test_vectors.md V-G2. -/
theorem test_getByte_mismatch :
    runs (.getByte .tx) { txState [0, 0, 0, 8, 0, 0, 0, 0x37] with res := 9 }
      (fun t => t.res == 0 && t.status == 1) = true := by
  decide

/-- spec/95_test_vectors.md V-G4. -/
theorem test_getInt16 :
    runs (.getInt16 .tx) (txState [0, 0, 0, 0x10, 0x40, 0, 0, 0xFE, 0xFF])
      (fun t => t.res == 0xFFFFFFFE && t.status == 0) = true := by
  decide

/-- spec/95_test_vectors.md V-G8. -/
theorem test_getUint16 :
    runs (.getUint16 .tx) (txState [0, 0, 0, 0x10, 0x60, 0, 0, 0xFF, 0xFF])
      (fun t => t.res == 0xFFFF && t.status == 0) = true := by
  decide

/-- spec/95_test_vectors.md V-G5. -/
theorem test_getUint16_mismatch :
    runs (.getUint16 .tx) (txState [0, 0, 0, 0x10, 0x40, 0, 0, 0xFE, 0xFF])
      (fun t => t.res == 0 && t.status == 1) = true := by
  decide

/-- spec/95_test_vectors.md V-G18. -/
theorem test_getLong32 :
    runs (.getLong32 .tx) (txState [0, 0, 0, 0x20, 0x80, 0, 0, 1, 0, 0x34, 0x12])
      (fun t => t.res == 0x12340001 && t.status == 0) = true := by
  decide

/-- spec/95_test_vectors.md V-G11. -/
theorem test_getUlong32 :
    runs (.getUlong32 .tx) (txState [0, 0, 0, 0x20, 0xA0, 0, 0, 7, 0, 0, 0])
      (fun t => t.res == 7 && t.status == 0) = true := by
  decide

/-- spec/95_test_vectors.md V-G10. -/
theorem test_getUlong32_mismatch :
    runs (.getUlong32 .tx) (txState [0, 0, 0, 0x20, 0x80, 0, 0, 1, 0, 0, 0])
      (fun t => t.res == 0 && t.status == 1) = true := by
  decide

/-- R176. -/
theorem test_getFloat32 :
    runs (.getFloat32 .tx) (txState [5, 7, 0, 0x2A, 0xE9, 0, 3, 0xE3, 0xA5, 0xBB, 0x41, 2])
      (fun t => t.res == 0x41BBA5E3 && t.status == 0) = true := by
  decide

/-- spec/95_test_vectors.md V-G13. -/
theorem test_getFloat32_short :
    runs (.getFloat32 .tx) (txState [0, 0, 0, 0x20, 0xE0, 0, 0, 0, 0, 0x80, 0x3F, 0])
      (fun t => t.res == 0 && t.status == 1) = true := by
  decide

/-- R177. -/
theorem test_getPrecision :
    runs (.getPrecision .tx) (txState [5, 7, 0, 0x2A, 0xE9, 0, 3, 0xE3, 0xA5, 0xBB, 0x41, 2])
      (fun t => t.res == 2 && t.status == 0) = true := by
  decide

/-- spec/95_test_vectors.md V-G15. -/
theorem test_getPresentation :
    runs (.getPresentation .tx) (txState [0, 0, 0, 0x10, 0xC0, 0, 0, 0x14, 6])
      (fun t => t.res == 0x614 && t.status == 0) = true := by
  decide

/-- spec/95_test_vectors.md V-G16. -/
theorem test_getPresentation_custom :
    runs (.getPresentation .tx) (txState [0, 0, 0, 0x18, 0xC0, 0, 0, 1, 2, 3])
      (fun t => t.res == 0x201 && t.status == 0) = true := by
  decide

/-- spec/95_test_vectors.md V-F1. -/
theorem test_getString :
    runs (.getString .tx) (txState f0)
      (fun t => delivered [0x32, 0x33, 0x2E, 0x34, 0x36] 0 t) = true := by
  decide +kernel

/-- spec/95_test_vectors.md V-T20. -/
theorem test_getString_overflow :
    runs (.getString .tx) (txState [0, 0, 0, 0x28, 0xE0, 0, 0, 0, 0, 0x80, 0x3F, 0xFF])
      (fun t => delivered [] 5 t) = true := by
  decide +kernel

/-- spec/95_test_vectors.md V-T14. -/
theorem test_getHex :
    runs (.getHex .tx) (txState [0, 0, 0, 0x10, 0x40, 0, 0, 0xFE, 0xFF])
      (fun t => delivered [0x46, 0x45, 0x46, 0x46] 0 t) = true := by
  decide

/-- spec/95_test_vectors.md V-T12. -/
theorem test_getHex_overlong :
    runs (.getHex .tx) (txState [0, 0, 0, 0xD0, 0, 0, 0, 0x41, 0x42])
      (fun t => delivered ([0x34, 0x31, 0x34, 0x32] ++ List.replicate 46 0x30) 3 t) = true := by
  decide

/-- spec/95_test_vectors.md V-T17. -/
theorem test_getRaw :
    runs (.getRaw .tx) (txState [0, 0, 0, 0x20, 0x80, 0, 0, 0x78, 0x56, 0x34, 0x12])
      (fun t => delivered [0x78, 0x56, 0x34, 0x12] 0 t) = true := by
  decide

/-- spec/95_test_vectors.md V-X1. -/
theorem test_loadHex :
    runs (.loadHex .tx) (withArgs 0 6 (withSin [0x64, 0x65, 0x41, 0x44, 0x62, 0x65, 0x45, 0x46] State.reset))
      (fun t => t.tx == frameOf [0, 0, 0, 0x20, 0xC0, 0, 0, 0xDE, 0xAD, 0xBE, 0xEF] && t.status == 0) = true := by
  decide

/-- spec/95_test_vectors.md V-X5. -/
theorem test_loadHex_odd :
    runs (.loadHex .tx) (withArgs 0 6 (withSin [0x41, 0x42, 0x43] (txState f0)))
      (fun t => t.tx == frameOf f0 && t.status == 4) = true := by
  decide

/-- R210. -/
theorem test_nop : runs .nop { txState f0 with status := 1 } (fun t => t == txState f0) = true := by decide

/-- spec/95_test_vectors.md V-W1. -/
theorem test_wireDecode :
    runs .wireDecode (withWire [0x00, 0x07, 0x05, 0x12, 0x41, 0x02, 0x01, 0x2C, 0x01] State.reset)
      (fun t => t.rx == frameOf [0x00, 0x07, 0x05, 0x12, 0x41, 0x02, 0x01, 0x2C, 0x01] &&
        t.status == 0) = true := by
  decide

/-- spec/95_test_vectors.md V-W6. -/
theorem test_wireDecode_short :
    runs .wireDecode (withWire [0x00, 0x07, 0x05, 0x12, 0x41, 0x02, 0x01, 0x2C] (rxState 5 f0))
      (fun t => t.rx == frameOf f0 && t.status == 3) = true := by
  decide

/-- spec/95_test_vectors.md V-W8. -/
theorem test_wireEncode :
    runs .wireEncode { txState [0x00, 0x05, 0x00, 0x0A, 0x21, 0x00, 0x01, 0x01] with nodeId := 5 }
      (fun t => t.wireOut.toList == [0, 5, 0, 0x0A, 0x21, 0, 1, 1] ++ List.replicate 24 0 &&
        t.wireOutCount == 8 && t.wireOutDest == 0 &&
        t.status == 0) = true := by
  decide

/-- spec/95_test_vectors.md V-W13. -/
theorem test_wireEncode_request :
    runs .wireEncode (txState [0x00, 0xFF, 0x00, 0x02, 0x03, 0x03, 0xFF])
      (fun t => t.wireOutCount == 7 && t.reqPending && t.status == 0) = true := by
  decide

/-- R213. -/
theorem test_frameCopy :
    runs .frameCopy (rxState 5 f0) (fun t => t.tx == frameOf f0 && t.status == 0) = true := by decide

/-- spec/95_test_vectors.md V-W18. -/
theorem test_buildAck :
    runs .buildAck (rxState 5 [0x00, 0x07, 0x05, 0x12, 0x49, 0x02, 0x01, 0x2C, 0x01])
      (fun t => t.tx == frameOf [0x00, 0x05, 0x07, 0x12, 0x51, 0x02, 0x01, 0x2C, 0x01]) = true := by
  decide

/-- spec/95_test_vectors.md V-I1. -/
theorem test_idLoad :
    runs .idLoad (withStored [(0, 7)] State.reset)
      (fun t => t.nodeId == 7 && t.idState == .assigned && t.storageWrites == []) = true := by
  decide

/-- R231. -/
theorem test_idLoad_halted :
    runs .idLoad { withStored [(0, 7)] State.reset with halted := true }
      (fun t => t.nodeId == 255 && t.status == 8) = true := by
  decide

/-- spec/95_test_vectors.md V-I4. -/
theorem test_cfgLoad :
    runs .cfgLoad State.reset (fun t => t.unitPref == 1 && t.storage == [] && t.storageWrites == []) = true := by decide

/-- spec/95_test_vectors.md V-I6. -/
theorem test_cfgLoad_stored :
    runs .cfgLoad (withStored [(1, 7)] State.reset) (fun t => t.unitPref == 7) = true := by decide

/-- spec/95_test_vectors.md V-I8. -/
theorem test_idAdopt :
    runs .idAdopt (withArgs 12 0 State.reset)
      (fun t => t.nodeId == 12 && t.storage == [(0, 12)] && t.storageWrites == [(0, 12)] &&
        t.status == 0) = true := by
  decide

/-- spec/95_test_vectors.md V-I12. -/
theorem test_idAdopt_pool_exhausted :
    runs .idAdopt (withArgs 255 0 { State.reset with reqPending := true })
      (fun t => t.halted && !t.reqPending && t.storageWrites == [] && t.status == 8) = true := by
  decide

/-- spec/95_test_vectors.md V-I14. -/
theorem test_idSetStatic :
    runs .idSetStatic (withArgs 20 0 { withStored [(0, 7)] State.reset with nodeId := 7 })
      (fun t => t.nodeId == 20 && t.storage == [(0, 7)] && t.storageWrites == []) = true := by
  decide

/-- spec/95_test_vectors.md V-I15. -/
theorem test_idSetStatic_persists :
    runs .idSetStatic (withArgs 20 0 { withStored [(0, 7)] State.reset with
      cfg := { Config.standard with staticIdPersists := true } })
      (fun t => t.storage == [(0, 20)] && t.storageWrites == [(0, 20)]) = true := by
  decide

/-- spec/95_test_vectors.md V-I19. -/
theorem test_cfgUpdate :
    runs .cfgUpdate (withArgs 0 0 (withStored [(0, 5), (1, 1)] State.reset))
      (fun t => t.storageWrites == [(1, 0)] && t.unitPref == 0) = true := by
  decide

/-- spec/95_test_vectors.md V-I22. -/
theorem test_cfgUpdate_invalid :
    runs .cfgUpdate (withArgs 2 0 State.reset) (fun t => t.status == 9 && t.unitPref == 255) = true := by decide

/-- spec/95_test_vectors.md V-I25. -/
theorem test_idTxCheck :
    runs .idTxCheck (txState [0x00, 0x05, 0x00, 0x0A, 0x21, 0x00, 0x01, 0x01])
      (fun t => t.res == 1 && t.status == 0) = true := by
  decide

/-- spec/95_test_vectors.md V-I29. -/
theorem test_txResult :
    runs .txResult { State.reset with failCnt := 255 } (fun t => t.failCnt == 0 && t.status == 0) = true := by decide

/-- R238. -/
theorem test_getNodeId : runs .getNodeId State.reset (fun t => t.res == 0xFF) = true := by decide

/-- R239. -/
theorem test_getUnitPref : runs .getUnitPref State.reset (fun t => t.res == 0xFF) = true := by decide

/-- R240. -/
theorem test_getFailCnt : runs .getFailCnt { State.reset with failCnt := 2 } (fun t => t.res == 2) = true := by decide

/-- R241. -/
theorem test_getIdState :
    runs .getIdState { State.reset with reqPending := true } (fun t => t.res == 1) = true := by decide

/-- spec/95_test_vectors.md V-C16. -/
theorem test_rxClassify :
    runs .rxClassify (rxState 5 [0x00, 0x00, 0x05, 0x12, 0x4B, 0x01, 0x00, 0x2C, 0x01])
      (fun t => t.res == 0x16 && t.status == 0) = true := by
  decide

/-- spec/95_test_vectors.md V-C3. -/
theorem test_rxClassify_dropped :
    runs .rxClassify (rxState 5 [0x00, 0x07, 0x06, 0x11, 0x49, 0x02, 0x01, 0x2C, 0x01])
      (fun t => t.res == 0) = true := by
  decide

/-- spec/95_test_vectors.md V-A2. -/
theorem test_idAdoptRx :
    runs .idAdoptRx (rxState 255 [0, 0, 0xFF, 0x1A, 0x03, 0x04, 0xFF, 0x30, 0x30, 0x37])
      (fun t => t.nodeId == 7 && t.status == 0) = true := by
  decide

/-- spec/95_test_vectors.md V-A3. -/
theorem test_idAdoptRx_too_large :
    runs .idAdoptRx (rxState 255 [0, 0, 0xFF, 0x1A, 0x03, 0x04, 0xFF, 0x32, 0x35, 0x36])
      (fun t => t.nodeId == 255 && t.status == 1) = true := by
  decide

/-- spec/95_test_vectors.md V-U2. -/
theorem test_cfgUpdateRx :
    runs .cfgUpdateRx (withStored [(0, 5), (1, 1)] (rxState 5 [0, 0, 5, 0x0A, 0x03, 0x06, 0xFF, 0x49]))
      (fun t => t.unitPref == 0 && t.storageWrites == [(1, 0)] && t.status == 0) = true := by
  decide

/-- spec/95_test_vectors.md V-U4. -/
theorem test_cfgUpdateRx_lower_case :
    runs .cfgUpdateRx (withStored [(0, 5), (1, 1)] (rxState 5 [0, 0, 5, 0x0A, 0x03, 0x06, 0xFF, 0x6D]))
      (fun t => t.status == 1 && t.storageWrites == []) = true := by
  decide
/-! The host's procedures, by programs of spec/95_test_vectors.md. -/

/-- A node of address `a` whose block is `s`, with these frames to come and every send succeeding. -/
def nodeOf (s : State) (inbox : List (List Byte)) : Node where
  dev := s
  params := {
    addressPolls := 0, finalPolls := 0, sensorNode := 255, presType := 0, libVersion := 2, presClass := 0,
    timeCallback := true }
  outcomes := [true, true, true]
  inbox := inbox
  afterRestart := Inputs.zero
  log := []
  report := .none

/-- The received frame of program P2. -/
def askedFrame : List Byte := [0, 7, 5, 0x12, 0x49, 2, 1, 0x2C, 1]

/-- The identity response of program P3. -/
def idResponse : List Byte := [0, 0, 0xFF, 0x0A, 0x23, 4, 0xFF, 0x0C]

/-- The block of an assigned node. -/
def assigned : State := { State.reset with nodeId := 5, unitPref := 1, storage := [(0, 5), (1, 1)] }

/-- Program P2: the acknowledgment, then the callback with the frame intact. -/
theorem test_engine_acknowledges :
    nodeRuns (Node.process (nodeOf assigned [askedFrame])) (fun n => n.report == .handled &&
      n.log == [.sent 7 [0, 5, 7, 0x12, 0x51, 2, 1, 0x2C, 1] true, .message (frameOf askedFrame)]) = true := by
  decide +kernel

/-- Program P3 within R274: the bootstrap asks for an address, adopts and stores it, and announces the node. Even the shortest
window runs one `process()`. -/
theorem test_engine_bootstrap :
    nodeRuns ((nodeOf State.reset [idResponse]).begin none 1 868) (fun n => n.dev.nodeId == 12 &&
      n.dev.storageWrites == [(0, 12)] && n.inbox == [] &&
      n.log == [.init 255 1 868, .sent 0 [0, 0xFF, 0, 2, 3, 3, 0xFF] true, .bootstrapped true,
        .sent 0 [0, 12, 0, 0x12, 0xC0, 0, 0xFF, 2, 0] true, .sent 0 [0, 12, 0, 2, 3, 6, 0xFF] true]) = true := by
  decide +kernel

/-- R274: step 6 issues nothing but what `process()` does: with no frame to come, the block is as the announcement left it. -/
theorem test_engine_final_wait_issues_nothing :
    nodeRuns ((nodeOf assigned []).poll 2) (fun n => n.dev == assigned && n.report == .notHandled) = true := by
  decide +kernel

/-- Program P6: an unassigned node that routes a set frame sends the identity request instead. -/
theorem test_engine_unassigned_route :
    nodeRuns (Node.route (nodeOf (txState [0, 0, 0, 8, 0x21, 0, 0, 1]) [])) (fun n => n.report == .failure &&
      n.dev.reqPending && n.dev.failCnt == 0 && n.log == [.sent 0 [0, 0xFF, 0, 2, 3, 3, 0xFF] true]) = true := by
  decide +kernel

/-! Witnesses: for each obligation with hypotheses, concrete values that meet them all. Where a statement has several clauses
over one input, one value for each clause, at a boundary. -/

/-- The block whose host does these actions next. -/
def hosted (actions : List HostAction) (s : State) : State := { s with script := actions }

/-- With this command word. -/
def withCmd (w : CmdWord) (s : State) : State := { s with inp := { s.inp with cmd := w } }

/-- A halted node's block. -/
def haltedState : State := { State.reset with halted := true }

theorem witness_DecodeAndEncodeAgree :
    (legalWord 0x015D = false ∧ legalWord 0x005D = true) ∧ (reservedClear 0x01FF = true ∧ reservedClear 0x0200 = false) ∧
      (opcodeAssigned 0x000C = true ∧ opcodeAssigned 0x000D = false) ∧
      (bufferAllowed 0x013D = true ∧ bufferAllowed 0x0140 = false) := by decide

theorem witness_IllegalCommandOnlySetsStatus : legalWord (withCmd 0x0100 assigned).inp.cmd = false := by decide

theorem witness_StepRunsTheIssuedCommand :
    (hosted [.issue] (withCmd 0x0158 assigned)).cfg.wf = true ∧
      decode (hosted [.issue] (withCmd 0x0058 assigned)).inp.cmd = .ok .getUnitPref ∧
      decode (hosted [.issue] (withCmd 0x0158 assigned)).inp.cmd = .error .bufOnFixedOpcode := by decide

theorem witness_HostWritesOnlyItsRegisters :
    assigned.cfg.wf = true ∧ assigned.script = [] ∧ (hosted [.wrCmd 1] assigned).script = .wrCmd 1 :: [] ∧
      (hosted [.wrArg0 1] assigned).script = .wrArg0 1 :: [] ∧ (hosted [.wrArg1 1] assigned).script = .wrArg1 1 :: [] ∧
      (hosted [.wrSinLen 50] assigned).script = .wrSinLen 50 :: [] ∧
      (hosted [.wrWireInCount 32] assigned).script = .wrWireInCount 32 :: [] ∧
      (hosted [.wrSin [1]] assigned).script = .wrSin [1] :: [] ∧
      (hosted [.wrWireIn [1]] assigned).script = .wrWireIn [1] :: [] := by decide

theorem witness_ResetEventRestoresRegistersKeepsStorage :
    (hosted [.reset Inputs.zero] assigned).cfg.wf = true ∧
      (hosted [.reset Inputs.zero] assigned).script = .reset Inputs.zero :: [] := by decide

/-- One configuration for each way of being ill-configured. -/
theorem witness_IllConfiguredMachineIsRefused :
    (∀ c ∈ [{ Config.standard with eeUnit := 0 }], Config.eeNodeId c = c.eeUnit) ∧
      (∀ c ∈ [{ Config.standard with eeNodeId := 2 }], Config.storageSize c ≤ c.eeNodeId) ∧
      (∀ c ∈ [{ Config.standard with eeUnit := 2 }], Config.storageSize c ≤ c.eeUnit) ∧
      (∀ c ∈ [{ Config.standard with storageSize := 1 }], Config.storageSize c < 2) ∧
      (∀ c ∈ [{ Config.standard with iTime := 3 }],
        ¬ [Config.iTime c, c.iIdRequest, c.iIdResponse, c.iConfig, c.iReboot].Nodup) := by decide

theorem witness_EveryOperationCompletes : State.reset.cfg.wf = true := by decide

/-- A boot in progress meets the invariant, and its next step answers a state. -/
theorem witness_StepKeepsInvariant :
    (hosted [.issue] (withCmd 0x0050 assigned)).Inv ∧
      (match step (hosted [.issue] (withCmd 0x0050 assigned)) with | .next t => t.nodeId == 5 | _ => false) = true := by
  refine ⟨⟨?_, ?_, ?_, ?_, ?_, ?_, ?_, ?_, ?_⟩, ?_⟩ <;> decide

theorem witness_PackedHeaderBytesRoundTrip :
    (3 < 4 ∧ 1 < 2 ∧ 31 < 32) ∧ List.Perm (byte3Setters .rx 3 1 31).reverse (byte3Setters .rx 3 1 31) ∧
      (7 < 8 ∧ 1 < 2 ∧ 1 < 2 ∧ 7 < 8) ∧ List.Perm (byte4Setters .tx 7 1 1 7).reverse (byte4Setters .tx 7 1 1 7) :=
  ⟨by decide, List.reverse_perm _, by decide, List.reverse_perm _⟩

/-- The clauses at their boundaries: 51 bytes, 50, 26, 25. -/
theorem witness_ByteStringSettersTruncateOrRefuse :
    (Instr.setString .tx, 0) ∈ [(Instr.setString .tx, 0), (Instr.setCustom .tx, 6)] ∧
      50 < (withSin (List.replicate 51 1) assigned).inp.sinLen.toNat ∧
      (25 < (withSin (List.replicate 50 1) assigned).inp.sinLen.toNat ∧
        ¬ 50 < (withSin (List.replicate 50 1) assigned).inp.sinLen.toNat) ∧
      25 < (withSin (List.replicate 26 1) assigned).inp.sinLen.toNat ∧
      ¬ 25 < (withSin (List.replicate 25 1) assigned).inp.sinLen.toNat := by decide

theorem witness_PayloadSettersEstablishTheLengthInvariant :
    (Instr.setByte .tx, 1, some 1) ∈ payloadSetters .tx ∧
      runs (.setByte .tx) (withArgs 7 0 assigned) (fun t => t.status == 0) = true ∧
      runs (.setString .tx) (withSin (List.replicate 26 0x41) assigned) (fun t => t.status == 2) = true := by decide

/-- Tag and length that just fit, a length one short, and a wrong tag. -/
theorem witness_ScalarGettersCheckTagAndLength :
    TagAndLength (frameOf [0, 0, 0, 0x20, 0x80]) 4 4 ∧ ¬ TagAndLength (frameOf [0, 0, 0, 0x18, 0x80]) 4 4 ∧
      ¬ TagAndLength (frameOf [0, 0, 0, 0x20, 0xA0]) 4 4 := by decide

/-- The patterns of a NaN, an infinity, the largest finite value and zero. -/
theorem witness_FloatTextRoundsTheExactValue :
    (exponentField 0x7F800001 = 255 ∧ fractionField 0x7F800001 ≠ 0) ∧
      (exponentField 0xFF800000 = 255 ∧ fractionField 0xFF800000 = 0) ∧ exponentField 0x7F7FFFFF = 254 ∧
      exponentField 0x80000000 = 0 := by decide

/-- For each tag a length at its boundary: the shortest that is delivered, and one short of it where that is refused; for a
string and custom bytes, 25 and 26. -/
theorem witness_GetStringDeliversTextForEveryTag :
    ([(0, 25), (0, 26), (6, 25), (6, 26), (1, 0), (1, 1), (2, 1), (2, 2), (3, 1), (3, 2), (4, 3), (4, 4), (5, 3), (5, 4),
      (7, 4), (7, 5)] : List (Nat × Nat)).all (fun (tag, n) =>
        (frameOf [0, 0, 0, BitVec.ofNat 8 (8 * n), BitVec.ofNat 8 (32 * tag)])[4].toNat / 32 == tag &&
        (frameOf [0, 0, 0, BitVec.ofNat 8 (8 * n), BitVec.ofNat 8 (32 * tag)])[3].toNat / 8 == n) = true := by decide

theorem witness_HexAndRawReadsDeliverThePayload :
    ¬ 25 < (frameOf [0, 0, 0, 0xC8])[3].toNat / 8 ∧ 25 < (frameOf [0, 0, 0, 0xD0])[3].toNat / 8 := by decide

/-- The clauses at their boundaries: 51 characters, a tag of 8, an odd length, the character after F, and 50 good characters
under tag 7. -/
theorem witness_LoadHexStoresTheDecodedBytes :
    50 < (withSin (List.replicate 51 0x30) assigned).inp.sinLen.toNat ∧ (withArgs 0 8 assigned).inp.arg1.toNat / 8 ≠ 0 ∧
      (withSin [0x30] assigned).inp.sinLen.toNat % 2 = 1 ∧ ¬ IsHex 0x47 ∧
      ((withSin (List.replicate 50 0x46) assigned).inp.sinLen.toNat = 50 ∧ IsHex 0x46 ∧
        (withArgs 0 7 assigned).inp.arg1.toNat / 8 = 0) := by decide

/-- A payload of exactly 25 bytes. -/
theorem witness_HexRoundTripsBetweenBuffers : ((txState [0, 0, 0, 0xC8]).fb .tx)[3].toNat / 8 ≤ 25 := by decide

/-- A finite value with decimals whose text fits, and one whose text does not. -/
theorem witness_FloatRoundTripsWithItsPrecision :
    exponentField (withArgs 0x3F800000 48 assigned).inp.arg0 ≠ 255 ∧
      0 < (withArgs 0x3F800000 48 assigned).inp.arg1.toNat ∧
      (fmtFloat 0x3F800000 48).length = 50 ∧ (fmtFloat 0x3F800000 49).length = 51 := by decide +kernel

/-- The clauses of the decoder's refusal at their boundaries: 6 bytes, 33, a length of 26, a byte too few, and a whole
frame. -/
theorem witness_WireDecodeAcceptsExactlyWholeFrames :
    (withWire (List.replicate 6 0) assigned).inp.wireInCount.toNat < 7 ∧
      32 < (withWire (List.replicate 33 0) assigned).inp.wireInCount.toNat ∧
      25 < (withWire ([0, 0, 0, 0xD0] ++ List.replicate 28 0) assigned).inp.wireIn[3].toNat / 8 ∧
      (withWire [0, 0, 0, 8, 0, 0, 0] assigned).inp.wireInCount.toNat <
        7 + (withWire [0, 0, 0, 8, 0, 0, 0] assigned).inp.wireIn[3].toNat / 8 ∧
      (withWire ([0, 0, 0, 0xC8] ++ List.replicate 28 0) assigned).inp.wireInCount.toNat =
        7 + (withWire ([0, 0, 0, 0xC8] ++ List.replicate 28 0) assigned).inp.wireIn[3].toNat / 8 := by decide

/-- The clauses of the encoder: halted, a length of 26, an unassigned node's ordinary frame and its identity request. -/
theorem witness_WireEncodeEmitsOnlyPermittedFrames :
    haltedState.halted = true ∧ 25 < (txState [0, 0, 0, 0xD0]).tx[3].toNat / 8 ∧
      ((txState f0).nodeId = 255 ∧ ¬ IsIdRequest (txState f0).tx (txState f0).cfg) ∧
      IsIdRequest (txState [0, 0xFF, 0, 2, 3, 3]).tx Config.standard := by decide

theorem witness_WireFrameRoundTrips :
    assigned.halted = false ∧ assigned.nodeId ≠ 255 ∧ assigned.tx[3].toNat / 8 ≤ 25 := by decide

/-- F0 with a byte beyond its length changed. -/
theorem witness_HiddenBytesNeverReachTheWire :
    (∀ (j : Nat) (h : j < 33), j < 7 + (txState f0).tx[3].toNat / 8 →
        (frameOf (f0 ++ [9]))[j] = (txState f0).tx[j]) ∧
      frameOf (f0 ++ [9]) ≠ (txState f0).tx := by decide

theorem witness_LoadsReadTheirStorageByte : assigned.cfg.wf = true := by decide

/-- The clauses of an adoption: halted, assigned, the pool exhausted, and an address. -/
theorem witness_AdoptionTakesAnAddressOnce :
    haltedState.cfg.wf = true ∧ haltedState.halted = true ∧ (assigned.halted = false ∧ assigned.nodeId ≠ 255) ∧
      (State.reset.nodeId = 255 ∧ (255 % 256 = 255) ∧ 254 % 256 ≠ 255) := by decide

/-- The clauses of an adoption from a frame: a byte payload, the largest decimal text, and one beyond it. -/
theorem witness_AdoptionFromTheReceivedFrame :
    assigned.cfg.wf = true ∧ TagAndLength (frameOf idResponse) 1 1 ∧
      TagAndLength (frameOf [0, 0, 0xFF, 0x1A, 3, 4, 0xFF, 0x32, 0x35, 0x35]) 0 1 ∧
      decimalValue [0x32, 0x35, 0x35] = 255 ∧ decimalValue [0x32, 0x35, 0x36] = 256 := by decide

/-- The clauses of a static address: halted, `AUTO`, persisted and not. -/
theorem witness_StaticAddressIsInstalled :
    haltedState.cfg.wf = true ∧ haltedState.halted = true ∧ assigned.halted = false ∧
      (BitVec.ofNat 8 255 : Byte) = 255 ∧ (BitVec.ofNat 8 254 : Byte) ≠ 255 ∧ Config.standard.staticIdPersists = false ∧
      Config.wf { Config.standard with staticIdPersists := true } = true := by decide

/-- The clauses of an update: the two preferences and the first value that is neither. -/
theorem witness_UnitUpdateWritesOnChange :
    assigned.cfg.wf = true ∧ ¬ (1 ≠ 1 ∧ 1 ≠ 0) ∧ ¬ (0 ≠ 1 ∧ 0 ≠ 0) ∧ (2 ≠ 1 ∧ 2 ≠ 0) := by decide

/-- The clauses of an update from a frame: M, I and an empty payload. -/
theorem witness_UnitUpdateFromTheReceivedFrame :
    assigned.cfg.wf = true ∧
      (TagAndLength (frameOf [0, 0, 5, 0x0A, 3, 6, 0xFF, 0x4D]) 0 1 ∧
        (frameOf [0, 0, 5, 0x0A, 3, 6, 0xFF, 0x4D])[7] = 0x4D) ∧
      (TagAndLength (frameOf [0, 0, 5, 0x0A, 3, 6, 0xFF, 0x49]) 0 1 ∧
        (frameOf [0, 0, 5, 0x0A, 3, 6, 0xFF, 0x49])[7] = 0x49) ∧
      ¬ TagAndLength (frameOf [0, 0, 5, 2, 3, 6, 0xFF]) 0 1 := by decide

/-- The three answers of the check: halted, an ordinary frame without an address, and an assigned node's frame of length 25. -/
theorem witness_TransmissionGateAgreesWithTheCheck :
    haltedState.halted = true ∧ ((txState f0).nodeId = 255 ∧ ¬ IsIdRequest (txState f0).tx (txState f0).cfg) ∧
      (assigned.halted = false ∧ assigned.nodeId ≠ 255 ∧ (frameOf [0, 0, 0, 0xC8])[3].toNat / 8 ≤ 25) := by decide

/-- A failure at 255 wraps to 0. -/
theorem witness_FailureCounterCountsModulo256 :
    (withArgs 1 0 assigned).inp.arg0.toNat % 2 = 1 ∧ (withArgs 2 0 assigned).inp.arg0.toNat % 2 ≠ 1 ∧ 256 % 256 = 0 := by
  decide

/-- One state for each stage. -/
theorem witness_IdentityQueriesAnswerTheRegisters :
    haltedState.halted = true ∧ (assigned.halted = false ∧ assigned.nodeId ≠ 255) ∧
      (State.reset.halted = false ∧ State.reset.nodeId = 255 ∧ State.reset.reqPending = false) ∧
      { State.reset with reqPending := true }.reqPending = true := by decide

/-- One frame for each class: version, destination, the four named kinds, another kind, another sender. -/
theorem witness_ReceivedFrameIsClassified :
    (frameOf [0, 0, 5, 3, 3, 6])[3].toNat % 4 ≠ 2 ∧ (frameOf [0, 0, 6, 2, 3, 6])[2] ≠ assigned.nodeId ∧
      ([(13, 3), (4, 4), (6, 5), (1, 6), (9, 7)] : List (Byte × Word)).all (fun (kind, k) =>
        runs .rxClassify (rxState 5 [0, 0, 5, 2, 3, kind]) (fun t => t.res == k)) = true ∧
      (frameOf [0, 7, 5, 2, 3, 6])[1] ≠ 0 := by decide

/-- A static address replaces an assigned one; an adoption replaces `AUTO`. -/
theorem witness_AssignedAddressChangesOnlyByLoadOrStatic :
    assigned.nodeId ≠ 255 ∧ runs .idSetStatic (withArgs 20 0 assigned) (fun t => t.nodeId != assigned.nodeId) = true ∧
      runs .idAdopt (withArgs 12 0 State.reset) (fun t => t.nodeId != State.reset.nodeId) = true := by decide

theorem witness_FramesAreWrittenOnlyByTheirOperations :
    runs (.setByte .rx) assigned (fun t => t.fb .rx != assigned.fb .rx) = true ∧
      runs .frameCopy (rxState 5 f0) (fun t => t.fb .tx != (rxState 5 f0).fb .tx) = true := by decide

theorem witness_OperationsLeaveInputsAndConfiguration :
    runs .idAdopt (withArgs 12 0 State.reset) (fun t => t.storage != State.reset.storage) = true := by decide

/-- One refusal of each kind. -/
theorem witness_RefusedOperationsChangeOnlyStatus :
    runs .idAdopt assigned (fun t => t.status == 7) = true ∧
      runs .cfgUpdate (withArgs 2 0 assigned) (fun t => t.status == 9) = true ∧
      runs (.loadHex .tx) (withSin [0x30] assigned) (fun t => t.status == 4) = true ∧
      runs .cfgUpdateRx assigned (fun t => t.status == 1) = true ∧
      runs .wireDecode assigned (fun t => t.status == 3) = true ∧
      runs .idLoad haltedState (fun t => t.status == 8) = true := by decide

/-- An operation that writes storage and one that does not. -/
theorem witness_StorageIsWrittenOnlyOnChange :
    State.reset.cfg.cmpSource = .storage ∧
      runs .idAdopt (withArgs 12 0 State.reset) (fun t => t.storageWrites == [(0, 12)]) = true ∧
      runs .cfgUpdate (withArgs 1 0 assigned) (fun t => t.storageWrites == []) = true := by decide

/-- Three steps that adopt an address. -/
theorem witness_StorageIsItsHistoryReplayed :
    (match Host.Core.run Sys2Proof.core 3 (hosted [.wrArg0 12, .wrCmd 0x0052, .issue] State.reset) with
      | .next t => State.storageWrites t == [(0, 12)]
      | _ => false) = true := by decide +kernel

theorem witness_HaltedNodeNeverTransmitsAgain :
    (hosted [.wrCmd 0x0050, .issue, .wrCmd 0x0041, .issue] haltedState).cfg.wf = true ∧
      (hosted [.wrCmd 0x0050, .issue, .wrCmd 0x0041, .issue] haltedState).halted = true ∧
      ∀ a ∈ (hosted [.wrCmd 0x0050, .issue, .wrCmd 0x0041, .issue] haltedState).script, a.keepsPower = true := by decide

/-- The counts at the boundary of log entry 5: 63 bytes, and 64. -/
theorem witness_AssemblerLinesRunTheirOperation : (countOf 63).toNat = 63 ∧ (countOf 64).toNat = 63 := by decide

theorem witness_RouteSendsTheStampedFrame :
    (nodeOf assigned []).dev.halted = false ∧ (nodeOf assigned []).dev.nodeId ≠ 255 ∧
      (nodeOf assigned []).dev.tx[3].toNat / 8 ≤ 25 := by decide

theorem witness_UnassignedRouteSendsTheIdentityRequest :
    (nodeOf (txState f0) []).dev.halted = false ∧ (nodeOf (txState f0) []).dev.nodeId = 255 ∧
      ¬ IsIdRequest (nodeOf (txState f0) []).dev.tx (nodeOf (txState f0) []).dev.cfg := by decide

theorem witness_AcknowledgmentPrecedesTheCallback :
    (nodeOf assigned []).dev.halted = false ∧ (nodeOf assigned []).dev.nodeId ≠ 255 ∧
      WholeFrameFor (nodeOf assigned []).dev.nodeId askedFrame ∧ (askedFrame.getD 4 0).toNat / 8 % 2 = 1 ∧
      ¬ ((askedFrame.getD 4 0).toNat % 8 = 3 ∧ askedFrame.getD 1 0 = 0) :=
  ⟨by decide, by decide, ⟨by decide, by decide, by decide, by decide, by decide, by decide⟩, by decide, by decide⟩

theorem witness_GatewayInternalFramesStayInternal :
    (nodeOf State.reset []).dev.cfg.wf = true ∧ (idResponse.getD 4 0).toNat % 8 = 3 ∧ idResponse.getD 1 0 = 0 := by decide

theorem witness_HaltedNodeHandsNothingToTheTransport :
    (nodeOf haltedState [idResponse]).dev.cfg.wf = true ∧ (nodeOf haltedState [idResponse]).dev.halted = true := by decide

theorem witness_BootWithAStoredAddress :
    (nodeOf (withStored [(0, 7)] State.reset) []).dev.cfg.wf = true ∧
      (nodeOf (withStored [(0, 7)] State.reset) []).dev.halted = false ∧
      (nodeOf (withStored [(0, 7)] State.reset) []).dev.storage.read
        (nodeOf (withStored [(0, 7)] State.reset) []).dev.cfg.eeNodeId ≠ 255 := by decide

end Sys2Proof.Tests
end

/-! What an operation can do, said once: `Effect i s` lists the ways operation `i` can complete on state `s`, and
`exec_effect` says that every operation completes in one of them. The statements about all operations at once (the
invariant, the writers of the frames, the untouched inputs) follow from it by its eleven cases. -/

namespace Sys2Proof.Machine

/-- The operations that write `UNIT_PREF` (R30). -/
def unitWriters : List Instr := [.cfgLoad, .cfgUpdate, .cfgUpdateRx]

/-- The operations that take an address only from an unassigned node (R233, R243). -/
def adoptions : List Instr := [.idAdopt, .idAdoptRx]

/-- The ways in which operation `i` can complete on state `s`. -/
inductive Effect (i : Instr) (s : State) : State → Prop
  /-- `STATUS` alone is written (R302). -/
  | statusOnly (st : Status) : Effect i s (s.finish st)
  /-- A header or register read (R100). -/
  | answered (v : Word) : Effect i s ((s.setRes v).finish .ok)
  /-- A scalar read whose tag or length does not fit (R170). -/
  | mismatched (hi : i.buf?.isSome = true) : Effect i s ((s.setRes 0).finish .typeMismatch)
  /-- The frame that R27 lets the operation write. -/
  | frameWritten (b : Buf) (f : Frame) (st : Status) (hi : Spec.frameWritten i = some b)
      (hst : st = .ok ∨ st = .truncated) : Effect i s ((s.setFb b f).finish st)
  /-- A text on the output port, which it fits (R22, R182). -/
  | textDelivered (text : List Byte) (st : Status) (hi : i.buf?.isSome = true) (hlen : text.length ≤ 50)
      (hst : st ∈ [Status.ok, .typeMismatch, .malformed, .outOverflow]) : Effect i s ((s.setSout text).finish st)
  /-- A refused encode: the wire port offers nothing (R212). -/
  | nothingOffered (st : Status) (hi : i = .wireEncode) (hst : st ∈ [Status.halted, .malformed, .deniedAuto]) :
      Effect i s (State.finish { s with wireOutCount := 0 } st)
  /-- A permitted encode (R212). -/
  | frameOffered (hi : i = .wireEncode) (hlive : s.halted = false) (hlen : s.tx.len ≤ 25) (hid : s.needsId = false) :
      Effect i s (State.finish { s with
        wireOut := s.tx.wireImage s.tx.len
        wireOutCount := BitVec.ofNat 6 (7 + s.tx.len)
        wireOutDest := s.tx.dest
        reqPending := s.nodeId == autoAddress || s.reqPending } .ok)
  /-- The failure counter (R237). -/
  | failuresCounted (n : Byte) (hi : i = .txResult) : Effect i s (State.finish { s with failCnt := n } .ok)
  /-- The unit preference, in the register only (R232, R249). -/
  | unitSet (v : Byte) (hi : i ∈ unitWriters) : Effect i s (State.finish { s with unitPref := v } .ok)
  /-- The unit preference, persisted because it differs from the value compared with (R249). -/
  | unitStored (v cur : Byte) (hi : i = .cfgUpdate ∨ i = .cfgUpdateRx) (hcur : s.currentUnit = some cur)
      (hne : cur ≠ v) (hlt : s.cfg.eeUnit < s.cfg.storageSize) :
      Effect i s (State.finish { s with
        unitPref := v, storage := s.storage.write s.cfg.eeUnit v,
        storageWrites := s.storageWrites ++ [(s.cfg.eeUnit, v)] } .ok)
  /-- The node address, in the register only (R231, R234, R248). -/
  | addressSet (a : Byte) (hlive : s.halted = false)
      (hi : i = .idLoad ∨ i = .idSetStatic ∨ i ∈ adoptions ∧ s.nodeId = autoAddress) :
      Effect i s (State.finish { s with nodeId := a, reqPending := false } .ok)
  /-- The node address, persisted because the stored byte differs (R234, R248). -/
  | addressStored (a : Byte) (hlive : s.halted = false)
      (hi : i = .idSetStatic ∨ i ∈ adoptions ∧ s.nodeId = autoAddress)
      (hne : s.storage.read s.cfg.eeNodeId ≠ a) (hlt : s.cfg.eeNodeId < s.cfg.storageSize) :
      Effect i s (State.finish { s with
        nodeId := a, reqPending := false, storage := s.storage.write s.cfg.eeNodeId a,
        storageWrites := s.storageWrites ++ [(s.cfg.eeNodeId, a)] } .ok)
  /-- The terminal halt (R248). -/
  | haltEntered (hi : i ∈ adoptions) (hlive : s.halted = false) (hauto : s.nodeId = autoAddress) :
      Effect i s (State.finish { s with halted := true, reqPending := false } .halted)

namespace Effect

variable {i : Instr} {s t : State}

theorem of_fail {st : Status} (h : s.fail st = .next t) : Effect i s t := by
  cases h; exact .statusOnly st

theorem of_answer {v : Word} (h : s.answer v = .next t) : Effect i s t := by
  cases h; exact .answered v

theorem of_putHeader {b : Buf} {f : Frame} (hi : Spec.frameWritten i = some b) (h : s.putHeader b f = .next t) :
    Effect i s t := by
  cases h; exact .frameWritten b f .ok hi (.inl rfl)

theorem of_putPayload {b : Buf} {tag : BitVec 3} {bytes : List Byte} {st : Status}
    (hi : Spec.frameWritten i = some b) (hst : st = .ok ∨ st = .truncated)
    (h : s.putPayload b tag bytes st = .next t) : Effect i s t := by
  cases h; exact .frameWritten b _ st hi hst

theorem of_putSin {b : Buf} {tag : PayloadTag} (hi : Spec.frameWritten i = some b) (h : s.putSin b tag = .next t) :
    Effect i s t := by
  rw [State.putSin_eq] at h
  split_ifs at h
  · exact of_fail h
  · exact of_putPayload hi (.inr rfl) h
  · exact of_putPayload hi (.inl rfl) h

theorem of_getTyped {b : Buf} {tag : PayloadTag} {size : Nat} {v : Word} (hi : i.buf?.isSome = true)
    (h : s.getTyped b tag size v = .next t) : Effect i s t := by
  unfold State.getTyped at h
  split_ifs at h
  · exact of_answer h
  · cases h; exact .mismatched hi

theorem of_putText {text : List Byte} {st : Status} (hi : i.buf?.isSome = true)
    (hst : st ∈ [Status.ok, .typeMismatch, .malformed, .outOverflow]) (h : s.putText text st = .next t) :
    Effect i s t := by
  rw [State.putText_eq] at h
  split_ifs at h with hlen
  · cases h; exact .textDelivered [] .outOverflow hi (by simp) (by simp)
  · cases h; exact .textDelivered text st hi (not_lt.1 hlen) hst

/-- Write-on-change of the address, by a node that is not halted (R234, R248). -/
theorem of_persist {a : Byte} (hlive : s.halted = false)
    (hi : i = .idSetStatic ∨ i ∈ adoptions ∧ s.nodeId = autoAddress)
    (h : State.persist { s with nodeId := a, reqPending := false } s.cfg.eeNodeId a = .next t) : Effect i s t := by
  obtain ⟨hlt, ⟨-, rfl⟩ | ⟨hne, rfl⟩⟩ := State.persist_cases h
  · exact .addressSet a hlive (.inr hi)
  · exact .addressStored a hlive hi hne hlt

theorem of_adopt {a : Byte} (hi : i ∈ adoptions) (h : s.adopt a = .next t) : Effect i s t := by
  obtain ⟨-, rfl⟩ | ⟨-, -, rfl⟩ | ⟨hlive, hauto, -, rfl⟩ | ⟨hlive, hauto, -, h⟩ := State.adopt_cases h
  · exact .statusOnly .halted
  · exact .statusOnly .illegalState
  · exact .haltEntered hi hlive hauto
  · exact of_persist hlive (.inr ⟨hi, hauto⟩) h

theorem of_updateUnit {v : Byte} (hi : i = .cfgUpdate ∨ i = .cfgUpdateRx) (h : s.updateUnit v = .next t) :
    Effect i s t := by
  have hw : i ∈ unitWriters := by rcases hi with rfl | rfl <;> decide
  obtain ⟨-, rfl⟩ | ⟨cur, hcur, hne, hlt, rfl⟩ := State.updateUnit_cases h
  · exact .unitSet v hw
  · exact .unitStored v cur hi hcur hne hlt

end Effect

theorem length_hexText (bytes : List Byte) : (hexText bytes).length = 2 * bytes.length := by
  simp [hexText, mul_comm]

/-- A clamped read ends `OK` or `MALFORMED` (R170). -/
theorem Frame.clampedStatus_mem (f : Frame) :
    f.clampedStatus ∈ [Status.ok, .typeMismatch, .malformed, .outOverflow] := by
  unfold Frame.clampedStatus
  split_ifs <;> simp

/-- The text of a payload comes with `OK`, or with the status of a clamped read (R182). -/
theorem Frame.status_of_text? {f : Frame} {text : List Byte} {st : Status} (h : f.text? = some (text, st)) :
    st = .ok ∨ st = f.clampedStatus := by
  unfold Frame.text? at h
  split at h
  case h_1 | h_2 => cases h; exact .inr rfl
  all_goals
    split_ifs at h
    cases h
    exact .inl rfl

section PerOperation

variable {b : Buf} {s t : State}

theorem getString_effect (h : execGetString b s = .next t) : Effect (.getString b) s t := by
  unfold execGetString at h
  split at h
  next => exact .of_putText rfl (by simp) h
  next text st htext =>
    refine .of_putText rfl ?_ h
    rcases Frame.status_of_text? htext with rfl | rfl
    · simp
    · exact Frame.clampedStatus_mem _

theorem getHex_effect (h : execGetHex b s = .next t) : Effect (.getHex b) s t := by
  cases h
  refine .textDelivered _ _ rfl ?_ (Frame.clampedStatus_mem _)
  have := Frame.clampedLen_le (s.fb b)
  rw [length_hexText, Frame.length_payload]
  omega

theorem getRaw_effect (h : execGetRaw b s = .next t) : Effect (.getRaw b) s t := by
  cases h
  refine .textDelivered _ _ rfl ?_ (Frame.clampedStatus_mem _)
  have := Frame.clampedLen_le (s.fb b)
  rw [Frame.length_payload]
  omega

theorem loadHex_effect (h : execLoadHex b s = .next t) : Effect (.loadHex b) s t := by
  unfold execLoadHex at h
  split_ifs at h
  · exact .of_fail h
  · split at h
    · exact .of_fail h
    · exact .of_putPayload rfl (.inl rfl) h

theorem wireDecode_effect (h : execWireDecode s = .next t) : Effect .wireDecode s t := by
  unfold execWireDecode at h
  dsimp only at h
  split_ifs at h
  · exact .of_fail h
  · exact .of_fail h
  · cases h; exact .frameWritten .rx _ .ok rfl (.inl rfl)

theorem wireEncode_effect (h : execWireEncode s = .next t) : Effect .wireEncode s t := by
  unfold execWireEncode at h
  dsimp only at h
  split_ifs at h with hhalt hlong hid
  · cases h; exact .nothingOffered .halted rfl (by simp)
  · cases h; exact .nothingOffered .malformed rfl (by simp)
  · cases h; exact .nothingOffered .deniedAuto rfl (by simp)
  · cases h
    exact .frameOffered rfl (Bool.eq_false_of_not_eq_true hhalt) (not_lt.1 hlong) (Bool.eq_false_of_not_eq_true hid)

theorem idLoad_effect (h : execIdLoad s = .next t) : Effect .idLoad s t := by
  unfold execIdLoad at h
  split_ifs at h with hhalt
  · exact .of_fail h
  · split at h
    · cases h
    · cases h; exact .addressSet _ (Bool.eq_false_of_not_eq_true hhalt) (.inl rfl)

theorem cfgLoad_effect (h : execCfgLoad s = .next t) : Effect .cfgLoad s t := by
  unfold execCfgLoad at h
  split at h
  · cases h
  · cases h; exact .unitSet _ (by decide)

theorem idSetStatic_effect (h : execIdSetStatic s = .next t) : Effect .idSetStatic s t := by
  unfold execIdSetStatic at h
  dsimp only at h
  split_ifs at h with hhalt
  · exact .of_fail h
  · exact .of_fail h
  · exact .of_persist (Bool.eq_false_of_not_eq_true hhalt) (.inl rfl) h
  · cases h; exact .addressSet _ (Bool.eq_false_of_not_eq_true hhalt) (.inr (.inl rfl))

theorem cfgUpdate_effect (h : execCfgUpdate s = .next t) : Effect .cfgUpdate s t := by
  unfold execCfgUpdate at h
  dsimp only at h
  split_ifs at h
  · exact .of_fail h
  · exact .of_updateUnit (.inl rfl) h

theorem idAdoptRx_effect (h : execIdAdoptRx s = .next t) : Effect .idAdoptRx s t := by
  unfold execIdAdoptRx at h
  split_ifs at h
  · exact .of_fail h
  · exact .of_fail h
  · split at h
    · exact .of_fail h
    · exact .of_adopt (by decide) h

theorem cfgUpdateRx_effect (h : execCfgUpdateRx s = .next t) : Effect .cfgUpdateRx s t := by
  unfold execCfgUpdateRx at h
  split at h
  · exact .of_fail h
  · exact .of_updateUnit (.inr rfl) h

end PerOperation

/-- Every operation that completes does so in one of the ways `Effect` lists. -/
theorem exec_effect {i : Instr} {s t : State} (h : exec i s = .next t) : Effect i s t := by
  cases i with
  | nop => cases h; exact .statusOnly .ok
  | getLast b | getSender b | getDest b | getVersion b | getSigned b | getLength b | getCommand b | getReqack b
  | getAck b | getPtype b | getType b | getSensor b => exact .of_answer h
  | idTxCheck | getNodeId | getUnitPref | getFailCnt | getIdState | rxClassify => exact .of_answer h
  | setLast b | setSender b | setDest b | setVersion b | setSigned b | setLength b | setCommand b | setReqack b
  | setAck b | setPtype b | setType b | setSensor b => exact .of_putHeader rfl h
  | setString b | setCustom b => exact .of_putSin rfl h
  | setByte b | setInt16 b | setUint16 b | setLong32 b | setUlong32 b | setFloat32 b | setPresentation b =>
    exact .of_putPayload rfl (.inl rfl) h
  | getByte b | getInt16 b | getUint16 b | getLong32 b | getUlong32 b | getFloat32 b | getPrecision b
  | getPresentation b => exact .of_getTyped rfl h
  | getString b => exact getString_effect h
  | getHex b => exact getHex_effect h
  | getRaw b => exact getRaw_effect h
  | loadHex b => exact loadHex_effect h
  | wireDecode => exact wireDecode_effect h
  | wireEncode => exact wireEncode_effect h
  | frameCopy => cases h; exact .frameWritten .tx _ .ok rfl (.inl rfl)
  | buildAck => cases h; exact .frameWritten .tx _ .ok rfl (.inl rfl)
  | idLoad => exact idLoad_effect h
  | cfgLoad => exact cfgLoad_effect h
  | idAdopt => exact .of_adopt (by decide) h
  | idSetStatic => exact idSetStatic_effect h
  | cfgUpdate => exact cfgUpdate_effect h
  | txResult => cases h; exact .failuresCounted _ rfl
  | idAdoptRx => exact idAdoptRx_effect h
  | cfgUpdateRx => exact cfgUpdateRx_effect h

end Sys2Proof.Machine

/-! The invariant: each way of changing the state keeps it, so each `Effect` does, so each step does. -/

namespace Sys2Proof.Machine.State.Inv

variable {s : State}

theorem finish (h : s.Inv) (st : Status) : (s.finish st).Inv := { h with statusAssigned := Status.code_le st }

theorem setRes (h : s.Inv) (v : Word) : (s.setRes v).Inv := { h with }

theorem setInp (h : s.Inv) (p : Inputs) : (s.setInp p).Inv := { h with }

theorem setScript (h : s.Inv) (rest : List HostAction) : State.Inv { s with script := rest } := { h with }

theorem setFailCnt (h : s.Inv) (n : Byte) : State.Inv { s with failCnt := n } := { h with }

theorem setUnitPref (h : s.Inv) (v : Byte) : State.Inv { s with unitPref := v } := { h with }

theorem setFb (h : s.Inv) (b : Buf) (f : Frame) : (s.setFb b f).Inv := by
  cases b <;> exact { h with }

/-- The output port may hold anything that is zero beyond its length (R22). -/
theorem setPort (h : s.Inv) {v : Vector Byte 50} {n : Count} (hfits : n.toNat ≤ 50)
    (hzero : ∀ (k : Nat) (hk : k < 50), n.toNat ≤ k → v[k] = 0) : State.Inv { s with sout := v, soutLen := n } :=
  { h with soutFits := hfits, soutZero := hzero }

theorem setSout (h : s.Inv) {text : List Byte} (hlen : text.length ≤ 50) : (s.setSout text).Inv := by
  have hcount : (BitVec.ofNat 6 text.length).toNat = text.length := by
    rw [BitVec.toNat_ofNat, Nat.mod_eq_of_lt (by omega)]
  rw [State.setSout_eq]
  refine h.setPort (hcount.trans_le hlen) fun k hk hle => ?_
  rw [getElem_port50]
  exact List.getD_eq_default _ _ (hcount ▸ hle)

/-- A node that is not halted may change its address, which ends a pending request (R33, R35). -/
theorem setAddress (h : s.Inv) (hlive : s.halted = false) (a : Byte) :
    State.Inv { s with nodeId := a, reqPending := false } :=
  { h with
    haltedUnassigned := fun hhalt => absurd (hhalt.symm.trans hlive) (by decide)
    pendingUnassigned := fun hpend => absurd hpend Bool.false_ne_true }

/-- The halt is entered by an unassigned node and ends a pending request (R35). -/
theorem enterHalt (h : s.Inv) (hauto : s.nodeId = autoAddress) :
    State.Inv { s with halted := true, reqPending := false } :=
  { h with
    haltedUnassigned := fun _ => ⟨hauto, rfl⟩
    pendingUnassigned := fun hpend => absurd hpend Bool.false_ne_true }

/-- A write to one of the two records inside storage (R57, R58). -/
theorem storeRecord (h : s.Inv) {a : Nat} (v : Byte) (hrec : a = s.cfg.eeNodeId ∨ a = s.cfg.eeUnit)
    (hlt : a < s.cfg.storageSize) :
    State.Inv { s with storage := s.storage.write a v, storageWrites := s.storageWrites ++ [(a, v)] } :=
  { h with
    storageCanonical := Memory.write_wf h.storageCanonical a v
    storageInside := fun c hc => by
      rcases Memory.mem_write hc with rfl | hc
      · exact hlt
      · exact h.storageInside c hc
    recordsOnly := fun c hc => by
      rcases List.mem_append.1 hc with hc | hc
      · exact h.recordsOnly c hc
      · rw [List.mem_singleton.1 hc]; exact hrec }

theorem offerNothing (h : s.Inv) : State.Inv { s with wireOutCount := 0 } := { h with wireOutWhole := .inl rfl }

/-- The wire port may hold anything that is a whole frame, and an unassigned node's pending request may be set with it
(R33, R79). -/
theorem setWireOut (h : s.Inv) (hlive : s.halted = false) {v : Vector Byte 32} {n : Count} {dest : Byte}
    (hannounced : n.toNat = 7 + v[3].toNat / 8) (hfits : n.toNat ≤ 32) (hdest : dest = v[2])
    (hzero : ∀ (k : Nat) (hk : k < 32), n.toNat ≤ k → v[k] = 0) :
    State.Inv { s with
      wireOut := v, wireOutCount := n, wireOutDest := dest
      reqPending := s.nodeId == autoAddress || s.reqPending } :=
  { h with
    haltedUnassigned := fun hhalt => absurd (hhalt.symm.trans hlive) (by decide)
    pendingUnassigned := fun hpend => by
      rcases Bool.or_eq_true_iff.1 hpend with hauto | hpend
      · exact beq_iff_eq.1 hauto
      · exact h.pendingUnassigned hpend
    wireOutWhole := .inr ⟨hannounced, hfits, hdest, hzero⟩ }

/-- A permitted encode offers the whole frame that the TX frame's length field announces (R79, R212). -/
theorem offerFrame (h : s.Inv) (hlive : s.halted = false) (hlen : s.tx.len ≤ 25) :
    State.Inv { s with
      wireOut := s.tx.wireImage s.tx.len
      wireOutCount := BitVec.ofNat 6 (7 + s.tx.len)
      wireOutDest := s.tx.dest
      reqPending := s.nodeId == autoAddress || s.reqPending } := by
  have hcount : (BitVec.ofNat 6 (7 + s.tx.len)).toNat = 7 + s.tx.len := by
    rw [BitVec.toNat_ofNat, Nat.mod_eq_of_lt (by omega)]
  have hheader : ∀ (k : Nat) (hk : k < 7), (s.tx.wireImage s.tx.len)[k] = s.tx[k] := fun k hk => by
    rw [Frame.getElem_wireImage, if_pos (by omega)]
  refine h.setWireOut hlive ?_ ?_ (hheader 2 (by omega)).symm fun k hk hle => ?_
  · rw [hcount, hheader 3 (by omega), Frame.len_eq]
  · omega
  · rw [Frame.getElem_wireImage, if_neg (by omega)]

/-- Every way in which an operation can complete keeps the invariant. -/
theorem effect {i : Instr} {t : State} (h : s.Inv) (he : Effect i s t) : t.Inv := by
  cases he with
  | statusOnly st => exact h.finish st
  | answered v => exact (h.setRes v).finish _
  | mismatched => exact (h.setRes 0).finish _
  | frameWritten b f st => exact (h.setFb b f).finish st
  | textDelivered text st _ hlen => exact (h.setSout hlen).finish st
  | nothingOffered st => exact h.offerNothing.finish st
  | frameOffered _ hlive hlen => exact (h.offerFrame hlive hlen).finish _
  | failuresCounted n => exact (h.setFailCnt n).finish _
  | unitSet v => exact (h.setUnitPref v).finish _
  | unitStored v _ _ _ _ hlt => exact ((h.setUnitPref v).storeRecord v (.inr rfl) hlt).finish _
  | addressSet a hlive => exact (h.setAddress hlive a).finish _
  | addressStored a hlive _ _ hlt => exact ((h.setAddress hlive a).storeRecord a (.inl rfl) hlt).finish _
  | haltEntered _ _ hauto => exact (h.enterHalt hauto).finish _

/-- The state after reset meets the invariant (R37). -/
theorem reset : State.reset.Inv where
  statusAssigned := by decide
  haltedUnassigned := fun hhalt => absurd hhalt (by decide)
  pendingUnassigned := fun hpend => absurd hpend (by decide)
  storageCanonical := Memory.reset_wf
  storageInside := fun _ hc => absurd hc List.not_mem_nil
  recordsOnly := fun _ hc => absurd hc List.not_mem_nil
  soutFits := by decide
  soutZero := fun _ hk _ => Vector.getElem_replicate hk
  wireOutWhole := .inl rfl

/-- Reset gives the registers of `State.reset` and keeps the storage, which was canonical and inside its size
(R321, R322). -/
theorem resetEvent (h : s.Inv) (p : Inputs) : (s.resetEvent p).Inv :=
  { Inv.reset with
    storageCanonical := h.storageCanonical
    storageInside := h.storageInside
    recordsOnly := h.recordsOnly }

/-- The command in `CMD`, legal or not, keeps the invariant. -/
theorem runCommand {t : State} (h : s.Inv) (hrun : Machine.runCommand s = .next t) : t.Inv := by
  obtain ⟨i, -, heq⟩ | ⟨e, -, heq⟩ := runCommand_cases s
  · exact h.effect (exec_effect (heq.symm.trans hrun))
  · cases heq.symm.trans hrun
    exact h.finish .illegalOp

theorem hostAction {a : HostAction} {t : State} (h : s.Inv) (hact : Machine.hostAction a s = .next t) : t.Inv := by
  obtain ⟨-, hrun⟩ | ⟨p, -, rfl⟩ | ⟨-, -, p, rfl⟩ := hostAction_cases hact
  · exact h.runCommand hrun
  · exact h.resetEvent p
  · exact h.setInp p

end Sys2Proof.Machine.State.Inv

namespace Sys2Proof.Proofs.State

open Sys2Proof.Machine

/-- Settles O10: a step is idle or a host action, and every host action keeps the invariant. -/
theorem stepKeepsInvariant : Obligations.StepKeepsInvariant := by
  intro s t hinv hstep
  obtain ⟨-, ⟨-, rfl⟩ | ⟨a, rest, -, hact⟩⟩ := step_cases hstep
  · exact hinv
  · exact (hinv.setScript rest).hostAction hact

/-- Settles O11. -/
theorem resetMeetsInvariant : Obligations.ResetMeetsInvariant := State.Inv.reset

/-! What no operation does: write a frame that is not its own, or touch what belongs to the host. -/

/-- Settles O46: the one effect that writes a frame writes the frame of R27's table and leaves the other; every other
effect leaves both. -/
theorem framesAreWrittenOnlyByTheirOperations : Obligations.FramesAreWrittenOnlyByTheirOperations := by
  intro i s t b hexec hchanged
  cases exec_effect hexec with
  | frameWritten c f st hi =>
    by_cases hbc : b = c
    · rw [hbc]; exact hi
    · exact absurd ((State.fb_finish _ st b).trans (State.fb_setFb_of_ne s f hbc)) hchanged
  | textDelivered text st =>
    exact absurd ((State.fb_finish _ st b).trans (State.fb_setSout s text b)) hchanged
  | _ => exact absurd (by cases b <;> rfl) hchanged

/-- Settles O47: no effect writes a host-written register, the configuration or the script. -/
theorem operationsLeaveInputsAndConfiguration : Obligations.OperationsLeaveInputsAndConfiguration := by
  intro i s t hexec
  cases exec_effect hexec with
  | frameWritten b f st => exact ⟨by simp, by simp, by simp⟩
  | textDelivered text st => exact ⟨by simp, by simp, by simp⟩
  | _ => exact ⟨rfl, rfl, rfl⟩

end Sys2Proof.Proofs.State

/-! The encoder reads a frame only up to the length it announces (R36, R73). -/

namespace Sys2Proof.Machine

variable {f g : Frame}

/-- The two frames agree on the bytes that `f` puts on the wire. -/
def Frame.AgreesOnWire (f g : Frame) : Prop := ∀ (j : Nat) (h : j < 33), j < 7 + f[3].toNat / 8 → g[j] = f[j]

namespace Frame.AgreesOnWire

/-- The seven header bytes are always on the wire. -/
theorem header (h : f.AgreesOnWire g) (k : Nat) (hk : k < 7) : g[k] = f[k] := h k (by omega) (by omega)

theorem len_eq (h : f.AgreesOnWire g) : g.len = f.len := by
  rw [Frame.len_eq, Frame.len_eq, h.header 3 (by omega)]

theorem dest_eq (h : f.AgreesOnWire g) : g.dest = f.dest := h.header 2 (by omega)

theorem isIdRequest_eq (h : f.AgreesOnWire g) (c : Config) : g.isIdRequest c = f.isIdRequest c := by
  simp only [Frame.isIdRequest, Frame.command, Frame.typeByte, h.header 4 (by omega), h.header 5 (by omega)]

theorem wireImage_eq (h : f.AgreesOnWire g) : g.wireImage f.len = f.wireImage f.len := by
  ext j hj
  rw [Frame.getElem_wireImage, Frame.getElem_wireImage]
  split_ifs with hsent
  · rw [h j (by omega) (Frame.len_eq f ▸ hsent)]
  · rfl

end Frame.AgreesOnWire

end Sys2Proof.Machine

namespace Sys2Proof.Proofs.State

open Sys2Proof.Machine

/-- Settles O34: the length, the gate's test, the destination and the wire image of the two TX frames are equal, so the
encoder takes the same branch and writes the same. -/
theorem hiddenBytesNeverReachTheWire : Obligations.HiddenBytesNeverReachTheWire := by
  intro s g hagree
  have h : s.tx.AgreesOnWire g := hagree
  have hid : State.needsId { s with tx := g } = s.needsId := by
    simp only [State.needsId, h.isIdRequest_eq]
  show ∃ t, execWireEncode s = .next t ∧ execWireEncode { s with tx := g } = .next { t with tx := g }
  simp only [execWireEncode, hid, h.len_eq, h.dest_eq, h.wireImage_eq]
  split_ifs <;> exact ⟨_, rfl, rfl⟩

end Sys2Proof.Proofs.State

/-! `STATUS` is written by every shared operation that completes and read by none (R28): each of them does the same on
the state with another `STATUS`. -/

namespace Sys2Proof.Machine.State

variable (s : State) (x : Byte)

@[simp] theorem fb_withStatus (b : Buf) : State.fb { s with status := x } b = s.fb b := by cases b <;> rfl

theorem putHeader_withStatus (b : Buf) (f : Frame) :
    State.putHeader { s with status := x } b f = s.putHeader b f := by
  cases b <;> rfl

theorem putPayload_withStatus (b : Buf) (tag : BitVec 3) (bytes : List Byte) (st : Status) :
    State.putPayload { s with status := x } b tag bytes st = s.putPayload b tag bytes st := by
  cases b <;> rfl

theorem putSin_withStatus (b : Buf) (tag : PayloadTag) :
    State.putSin { s with status := x } b tag = s.putSin b tag := by
  simp only [State.putSin_eq, putPayload_withStatus]
  rfl

theorem getTyped_withStatus (b : Buf) (tag : PayloadTag) (size : Nat) (v : Word) :
    State.getTyped { s with status := x } b tag size v = s.getTyped b tag size v := by
  simp only [State.getTyped_eq, fb_withStatus]

theorem putText_withStatus (text : List Byte) (st : Status) :
    State.putText { s with status := x } text st = s.putText text st := by
  simp only [State.putText_eq, State.setSout_eq, State.finish_eq]

theorem persist_withStatus (a : Nat) (v : Byte) : State.persist { s with status := x } a v = s.persist a v := by
  simp only [State.persist, State.memRead, State.memWrite]
  split_ifs <;> rfl

theorem adopt_withStatus (a : Byte) : State.adopt { s with status := x } a = s.adopt a := by
  have hpersist := persist_withStatus { s with nodeId := a, reqPending := false } x s.cfg.eeNodeId a
  simp only [State.adopt, ← hpersist]
  rfl

theorem updateUnit_withStatus (v : Byte) : State.updateUnit { s with status := x } v = s.updateUnit v := by
  simp only [State.updateUnit, State.currentUnit, State.memRead, State.memWrite]
  cases s.cfg.cmpSource <;> split_ifs <;> rfl

end Sys2Proof.Machine.State

namespace Sys2Proof.Proofs.State

open Sys2Proof.Machine

/-- Settles O48: each operation is a shared operation that does not read `STATUS`, or reads other fields before it
writes it. -/
theorem statusIsOverwrittenAndNeverRead : Obligations.StatusIsOverwrittenAndNeverRead := by
  intro i s x
  cases i with
  | nop | wireDecode | wireEncode | frameCopy | buildAck => rfl
  | idLoad | cfgLoad | idTxCheck | txResult | getNodeId | getUnitPref | getFailCnt | getIdState | rxClassify => rfl
  | getLast b | getSender b | getDest b | getVersion b | getSigned b | getLength b | getCommand b | getReqack b
  | getAck b | getPtype b | getType b | getSensor b => cases b <;> rfl
  | setLast b | setSender b | setDest b | setVersion b | setSigned b | setLength b | setCommand b | setReqack b
  | setAck b | setPtype b | setType b | setSensor b => cases b <;> exact State.putHeader_withStatus s x _ _
  | setString b | setCustom b => exact State.putSin_withStatus s x b _
  | setByte b | setInt16 b | setUint16 b | setLong32 b | setUlong32 b | setFloat32 b | setPresentation b =>
    exact State.putPayload_withStatus s x b _ _ _
  | getByte b | getInt16 b | getUint16 b | getLong32 b | getUlong32 b | getFloat32 b | getPrecision b
  | getPresentation b => cases b <;> exact State.getTyped_withStatus s x _ _ _ _
  | getString b =>
    show execGetString b _ = execGetString b s
    simp only [execGetString, State.fb_withStatus, State.putText_withStatus]
  | getHex b =>
    show execGetHex b _ = execGetHex b s
    simp only [execGetHex, State.fb_withStatus, State.setSout_eq, State.finish_eq]
  | getRaw b =>
    show execGetRaw b _ = execGetRaw b s
    simp only [execGetRaw, State.fb_withStatus, State.setSout_eq, State.finish_eq]
  | loadHex b =>
    show execLoadHex b _ = execLoadHex b s
    simp only [execLoadHex, State.putPayload_withStatus]
    rfl
  | idAdopt => exact State.adopt_withStatus s x _
  | idSetStatic =>
    show execIdSetStatic _ = execIdSetStatic s
    have hpersist := State.persist_withStatus { s with nodeId := lowByte s.inp.arg0, reqPending := false } x
    simp only [execIdSetStatic, ← hpersist]
    rfl
  | cfgUpdate =>
    show execCfgUpdate _ = execCfgUpdate s
    simp only [execCfgUpdate, State.updateUnit_withStatus]
    rfl
  | idAdoptRx =>
    show execIdAdoptRx _ = execIdAdoptRx s
    simp only [execIdAdoptRx, State.adopt_withStatus]
    rfl
  | cfgUpdateRx =>
    show execCfgUpdateRx _ = execCfgUpdateRx s
    simp only [execCfgUpdateRx, State.updateUnit_withStatus]
    rfl

end Sys2Proof.Proofs.State

/-! The command word of an operation carries its opcode and its buffer, so it decodes to the operation (R70,
R81, R84). -/

namespace Sys2Proof

theorem reservedField_encode (i : Instr) : reservedField (encode i) = 0 := by
  ext k hk
  simp [reservedField, encode, BitVec.getElem_extractLsb', BitVec.getLsbD_of_ge, show 8 ≤ 9 + k by omega,
    show 9 + k - 8 ≠ 0 by omega]

theorem opField_encode (i : Instr) : opField (encode i) = opcode i := by
  ext k hk
  simp [opField, encode, BitVec.getElem_extractLsb', hk, show k < 16 by omega]

theorem bufField_encode (i : Instr) : bufField (encode i) = i.buf?.getD .tx := by
  have hbit : (encode i).getLsbD 8 = (i.buf?.getD .tx).bit := by
    simp [encode, BitVec.getLsbD_of_ge]
  rw [bufField, hbit]
  cases i.buf?.getD .tx <;> rfl

theorem opcodeInstr_opcode (i : Instr) : opcodeInstr (opcode i) (i.buf?.getD .tx) = some i := by
  cases i <;> rfl

theorem decode_encode (i : Instr) : decode (encode i) = .ok i := by
  have hallowed : ¬ (i.buf? = none ∧ i.buf?.getD .tx = .rx) := by
    rintro ⟨hnone, hrx⟩
    rw [hnone] at hrx
    cases hrx
  rw [decode, if_pos (reservedField_encode i), opField_encode, bufField_encode, opcodeInstr_opcode]
  exact if_neg hallowed

end Sys2Proof

namespace Sys2Proof.Machine

theorem runCommand_of_ok {s : State} {i : Instr} (h : decode s.inp.cmd = .ok i) : runCommand s = exec i s := by
  rw [runCommand, h]

theorem runCommand_of_error {s : State} {e : DecodeError} (h : decode s.inp.cmd = .error e) :
    runCommand s = s.fail .illegalOp := by
  rw [runCommand, h]

/-- A step at which the host issues performs the command in `CMD` (R20, R63). -/
theorem step_of_issue {s : State} {rest : List HostAction} (hc : s.cfg.wf = true) (hs : s.script = .issue :: rest) :
    step s = runCommand { s with script := rest } :=
  step_of_cons hc hs

end Sys2Proof.Machine

namespace Sys2Proof.Proofs.State

open Sys2Proof.Machine

/-- Settles O4. -/
theorem stepRunsTheIssuedCommand : Obligations.StepRunsTheIssuedCommand := by
  refine ⟨fun s i rest hc hs hi => ?_, fun s e rest hc hs he => ?_, fun s i hc => ?_⟩
  · rw [step_of_issue hc hs]
    exact runCommand_of_ok hi
  · rw [step_of_issue hc hs]
    exact runCommand_of_error he
  · have hword : BitVec.ofNat 16 ((encode i).toNat % 2 ^ 16) = encode i := by
      rw [Nat.mod_eq_of_lt (encode i).isLt, BitVec.ofNat_toNat, BitVec.setWidth_eq]
    rw [State.withFetchWord, hword]
    exact Eq.trans (step_of_issue (rest := s.script) hc rfl) (runCommand_of_ok (decode_encode i))

/-- Settles O5: the next step is the host's write, of one register or of the first bytes of a port. -/
theorem hostWritesOnlyItsRegisters : Obligations.HostWritesOnlyItsRegisters := by
  intro s rest hc
  refine ⟨fun hs => ?idle, fun w hs => step_of_cons hc hs, fun v hs => step_of_cons hc hs,
    fun v hs => step_of_cons hc hs, fun n hs => step_of_cons hc hs, fun n hs => step_of_cons hc hs,
    fun bytes hs => ⟨overwrite s.inp.sin bytes, step_of_cons hc hs, getElem_overwrite s.inp.sin bytes⟩,
    fun bytes hs => ⟨overwrite s.inp.wireIn bytes, step_of_cons hc hs, getElem_overwrite s.inp.wireIn bytes⟩⟩
  case idle => rw [step, if_pos hc, hs]

/-- Settles O7: the register values are those `State.reset` is defined with, and its storage lists no byte. -/
theorem resetStateHoldsTheSpecValues : Obligations.ResetStateHoldsTheSpecValues :=
  ⟨rfl, rfl, rfl, rfl, rfl, rfl, rfl, rfl, rfl, rfl, rfl, rfl, rfl, rfl, rfl, Memory.read_nil, rfl⟩

end Sys2Proof.Proofs.State

/-! Persisted storage: an operation that completes leaves it alone or writes one byte to one record, and never the erased
value, so the byte reads back on any storage (R57, R58). -/

namespace Sys2Proof.Machine

/-- The operations that may write storage (R51). -/
def storageWriters : List Instr := [.idAdopt, .idAdoptRx, .idSetStatic, .cfgUpdate, .cfgUpdateRx]

/-- Operation `i` takes `s` to `t` by writing `v` to the record `a`. -/
structure StoresByte (i : Instr) (s t : State) (a : Nat) (v : Byte) : Prop where
  writer : i ∈ storageWriters
  /-- The record is one of the two, and its value compared with differed from `v` (R234, R248, R249). -/
  changed : a = s.cfg.eeNodeId ∧ s.storage.read a ≠ v ∨ a = s.cfg.eeUnit ∧ ∀ cur, s.currentUnit = some cur → cur ≠ v
  /-- The record lies inside storage (R39). -/
  inside : a < s.cfg.storageSize
  notErased : v ≠ erasedByte
  storage_eq : t.storage = s.storage.write a v
  history_eq : t.storageWrites = s.storageWrites ++ [(a, v)]

section StoredValues

variable {s t : State}

theorem State.eq_ok_of_status_finish {st : Status} (hok : (s.finish st).status = 0) : st = .ok :=
  Status.code_injective hok

theorem State.eq_ok_of_fail {st : Status} (h : s.fail st = .next t) (hok : t.status = 0) : st = .ok := by
  cases h
  exact State.eq_ok_of_status_finish hok

/-- An adoption that ends `OK` took an address; `AUTO` ends `HALTED` (R248). -/
theorem State.nodeId_ne_auto_of_adopt {a : Byte} (h : s.adopt a = .next t) (hok : t.status = 0) :
    t.nodeId ≠ autoAddress := by
  obtain ⟨-, rfl⟩ | ⟨-, -, rfl⟩ | ⟨-, -, -, rfl⟩ | ⟨-, -, ha, h⟩ := State.adopt_cases h
  · cases State.eq_ok_of_status_finish hok
  · cases State.eq_ok_of_status_finish hok
  · cases State.eq_ok_of_status_finish hok
  · obtain ⟨-, ⟨-, rfl⟩ | ⟨-, rfl⟩⟩ := State.persist_cases h <;> exact ha

theorem nodeId_ne_auto_of_idSetStatic (h : execIdSetStatic s = .next t) (hok : t.status = 0) :
    t.nodeId ≠ autoAddress := by
  unfold execIdSetStatic at h
  dsimp only at h
  split_ifs at h with _ ha
  · cases State.eq_ok_of_fail h hok
  · cases State.eq_ok_of_fail h hok
  · obtain ⟨-, ⟨-, rfl⟩ | ⟨-, rfl⟩⟩ := State.persist_cases h <;> exact ha
  · cases h; exact ha

theorem nodeId_ne_auto_of_idAdoptRx (h : execIdAdoptRx s = .next t) (hok : t.status = 0) :
    t.nodeId ≠ autoAddress := by
  unfold execIdAdoptRx at h
  split_ifs at h
  · cases State.eq_ok_of_fail h hok
  · cases State.eq_ok_of_fail h hok
  · split at h
    · cases State.eq_ok_of_fail h hok
    · exact State.nodeId_ne_auto_of_adopt h hok

/-- The operations that store an address end `OK` only with one in `NODE_ID` (R234, R248). -/
theorem nodeId_ne_auto_of_exec {i : Instr} (hi : i = .idSetStatic ∨ i ∈ adoptions) (h : exec i s = .next t)
    (hok : t.status = 0) : t.nodeId ≠ autoAddress := by
  simp only [adoptions, List.mem_cons, List.not_mem_nil, or_false] at hi
  rcases hi with rfl | rfl | rfl
  · exact nodeId_ne_auto_of_idSetStatic h hok
  · exact State.nodeId_ne_auto_of_adopt h hok
  · exact nodeId_ne_auto_of_idAdoptRx h hok

/-- Every update that completes leaves its value in `UNIT_PREF` (R249). -/
theorem State.unitPref_of_updateUnit {v : Byte} (h : s.updateUnit v = .next t) : t.unitPref = v := by
  obtain ⟨-, rfl⟩ | ⟨_, -, -, -, rfl⟩ := State.updateUnit_cases h <;> rfl

/-- A received preference is metric or imperial (R247). -/
theorem Frame.decUnit?_ne_unset {f : Frame} {v : Byte} (h : f.decUnit? = some v) : v ≠ unitUnset := by
  unfold Frame.decUnit? at h
  split_ifs at h
  · cases h; decide
  · cases h; decide

/-- An update that ends `OK` leaves metric or imperial in `UNIT_PREF` (R235, R244). -/
theorem unitPref_ne_unset_of_exec {i : Instr} (hi : i = .cfgUpdate ∨ i = .cfgUpdateRx) (h : exec i s = .next t)
    (hok : t.status = 0) : t.unitPref ≠ unitUnset := by
  rcases hi with rfl | rfl
  · change execCfgUpdate s = _ at h
    unfold execCfgUpdate at h
    dsimp only at h
    split_ifs at h with hunit
    · cases State.eq_ok_of_fail h hok
    · rw [State.unitPref_of_updateUnit h]
      intro hunset
      exact hunit (by rw [hunset]; decide)
  · change execCfgUpdateRx s = _ at h
    unfold execCfgUpdateRx at h
    split at h
    · cases State.eq_ok_of_fail h hok
    next v hdec =>
      rw [State.unitPref_of_updateUnit h]
      exact Frame.decUnit?_ne_unset hdec

end StoredValues

/-- Every operation that completes leaves storage and its history alone or writes one byte to one record: of the effects
only `addressStored` and `unitStored` touch them. -/
theorem exec_storage_cases {i : Instr} {s t : State} (h : exec i s = .next t) :
    (t.storage = s.storage ∧ t.storageWrites = s.storageWrites) ∨ ∃ a v, StoresByte i s t a v := by
  cases exec_effect h with
  | addressStored a _ hi hne hlt =>
    have hi : i = .idSetStatic ∨ i ∈ adoptions := hi.imp_right And.left
    have hwriter : i ∈ storageWriters := by
      simp only [adoptions, storageWriters, List.mem_cons] at hi ⊢
      tauto
    exact .inr ⟨_, a, hwriter, .inl ⟨rfl, hne⟩, hlt, nodeId_ne_auto_of_exec hi h rfl, rfl, rfl⟩
  | unitStored v cur hi hcur hne hlt =>
    have hwriter : i ∈ storageWriters := by rcases hi with rfl | rfl <;> decide
    have hchanged : ∀ c, s.currentUnit = some c → c ≠ v := fun c hc =>
      Option.some.inj (hcur.symm.trans hc) ▸ hne
    exact .inr ⟨_, v, hwriter, .inr ⟨rfl, hchanged⟩, hlt, unitPref_ne_unset_of_exec hi h rfl, rfl, rfl⟩
  | frameWritten b f st => exact .inl ⟨by simp, by simp⟩
  | textDelivered text st => exact .inl ⟨by simp, by simp⟩
  | _ => exact .inl ⟨rfl, rfl⟩

namespace StoresByte

variable {i : Instr} {s t : State} {a : Nat} {v : Byte}

/-- The byte written reads back and no other byte changes, on any storage. -/
theorem read_eq (h : StoresByte i s t a v) (x : Nat) : t.storage.read x = if x = a then v else s.storage.read x := by
  rw [h.storage_eq, Memory.read_write_of_ne _ _ h.notErased]

theorem record (h : StoresByte i s t a v) : a = s.cfg.eeNodeId ∨ a = s.cfg.eeUnit :=
  h.changed.imp And.left And.left

/-- Where updates compare with storage, the byte written differed (R55). -/
theorem read_ne (h : StoresByte i s t a v) (hcmp : s.cfg.cmpSource = .storage) : s.storage.read a ≠ v := by
  rcases h.changed with ⟨-, hne⟩ | ⟨rfl, hne⟩
  · exact hne
  · exact hne _ (by rw [State.currentUnit_of_lt h.inside, hcmp])

end StoresByte

/-! The history of writes: it only grows, and by the writes that made the storage what it is (R58). -/

@[simp] theorem replayed_nil (a : Nat) (v : Byte) : replayed [] a v = v := rfl

@[simp] theorem replayed_singleton (c : Host.Cell) (a : Nat) (v : Byte) :
    replayed [c] a v = if c.1 = a then c.2 else v := rfl

theorem replayed_append (ws us : List Host.Cell) (a : Nat) (v : Byte) :
    replayed (ws ++ us) a v = replayed us a (replayed ws a v) := List.foldl_append

/-- `t` has the history of `s` and some writes after it, and the storage of `s` with those writes applied. -/
def State.ReplaysTo (s t : State) : Prop :=
  ∃ ws, t.storageWrites = s.storageWrites ++ ws ∧ ∀ a, t.storage.read a = replayed ws a (s.storage.read a)

namespace State.ReplaysTo

variable {s t u : State}

theorem of_eq (hstorage : t.storage = s.storage) (hhistory : t.storageWrites = s.storageWrites) : s.ReplaysTo t :=
  ⟨[], by rw [hhistory, List.append_nil], fun a => by rw [hstorage, replayed_nil]⟩

theorem refl (s : State) : s.ReplaysTo s := of_eq rfl rfl

theorem trans (hst : s.ReplaysTo t) (htu : t.ReplaysTo u) : s.ReplaysTo u := by
  obtain ⟨ws, hws, hread⟩ := hst
  obtain ⟨us, hus, hread'⟩ := htu
  refine ⟨ws ++ us, by rw [hus, hws, List.append_assoc], fun a => ?_⟩
  rw [hread', hread, replayed_append]

theorem of_exec {i : Instr} (h : exec i s = .next t) : s.ReplaysTo t := by
  obtain ⟨hstorage, hhistory⟩ | ⟨a, v, hstores⟩ := exec_storage_cases h
  · exact of_eq hstorage hhistory
  · refine ⟨[(a, v)], hstores.history_eq, fun x => ?_⟩
    rw [hstores.read_eq, replayed_singleton]
    simp only [eq_comm (a := x)]

theorem of_runCommand (h : runCommand s = .next t) : s.ReplaysTo t := by
  obtain ⟨i, -, heq⟩ | ⟨e, -, heq⟩ := runCommand_cases s
  · exact of_exec (heq.symm.trans h)
  · cases heq.symm.trans h
    exact of_eq rfl rfl

/-- Reset keeps storage and its history (R322), and the host's writes do not reach them (R24). -/
theorem of_hostAction {a : HostAction} (h : hostAction a s = .next t) : s.ReplaysTo t := by
  obtain ⟨-, hrun⟩ | ⟨p, -, rfl⟩ | ⟨-, -, p, rfl⟩ := hostAction_cases h
  · exact of_runCommand hrun
  · exact of_eq (State.resetEvent_storage s p) (State.resetEvent_storageWrites s p)
  · exact of_eq (State.setInp_storage s p) (State.setInp_storageWrites s p)

theorem of_step (h : step s = .next t) : s.ReplaysTo t := by
  obtain ⟨-, ⟨-, rfl⟩ | ⟨a, rest, -, hact⟩⟩ := step_cases h
  · exact refl _
  · exact (of_eq rfl rfl : s.ReplaysTo { s with script := rest }).trans (of_hostAction hact)

end State.ReplaysTo

/-- If a run of `k + 1` steps answers a state, the first step answered one and the run went on from there. -/
theorem run_succ_cases {M : Host.Core} {k : Nat} {s t : M.State} (h : M.run (k + 1) s = .next t) :
    ∃ u, M.step s = .next u ∧ M.run k u = .next t := by
  unfold Host.Core.run at h
  split at h
  · exact ⟨_, by assumption, h⟩
  · cases h
  · cases h

/-- A reflexive and transitive relation that every step keeps relates the ends of every run. -/
theorem run_induction {M : Host.Core} {R : M.State → M.State → Prop} (hrefl : ∀ s, R s s)
    (htrans : ∀ s t u, R s t → R t u → R s u) (hstep : ∀ s t, M.step s = .next t → R s t) (k : Nat) (s t : M.State)
    (hrun : M.run k s = .next t) : R s t := by
  induction k generalizing s with
  | zero =>
    cases hrun
    exact hrefl _
  | succ k ih =>
    obtain ⟨u, hfirst, hrest⟩ := run_succ_cases hrun
    exact htrans s u t (hstep s u hfirst) (ih u hrest)

theorem step_of_not_wf {s : State} (h : ¬ s.cfg.wf = true) : step s = .refused .illConfigured := if_neg h

end Sys2Proof.Machine

namespace Sys2Proof.Proofs.Memory

open Sys2Proof.Machine

/-- Settles O51, by induction on the run: each step appends to the history the writes it applied to storage. -/
theorem storageIsItsHistoryReplayed : Obligations.StorageIsItsHistoryReplayed :=
  run_induction (M := Sys2Proof.core) (R := State.ReplaysTo) State.ReplaysTo.refl
    (fun _ _ _ => State.ReplaysTo.trans) fun _ _ => State.ReplaysTo.of_step

/-- Settles O50: the one write an operation may do is to a record whose byte differed. -/
theorem storageIsWrittenOnlyOnChange : Obligations.StorageIsWrittenOnlyOnChange := by
  intro i s t hcmp hexec
  obtain hkept | ⟨a, v, hstores⟩ := exec_storage_cases hexec
  · exact .inl hkept
  · exact .inr ⟨a, v, hstores.record, hstores.read_ne hcmp, hstores.history_eq, hstores.read_eq, hstores.writer⟩

/-- Settles O8: each cause denies one of the parts of a well-formed configuration. -/
theorem illConfiguredMachineIsRefused : Obligations.IllConfiguredMachineIsRefused := by
  intro s hill
  refine step_of_not_wf fun hwf => ?_
  obtain ⟨hsize, hnode, hunit, hdistinct, hcodes⟩ := (Config.wf_iff s.cfg).1 hwf
  rcases hill with hsame | hnode' | hunit' | hsize' | hcodes'
  · exact hdistinct hsame
  · exact absurd hnode hnode'.not_gt
  · exact absurd hunit hunit'.not_gt
  · exact absurd hsize hsize'.not_ge
  · exact hcodes' hcodes

end Sys2Proof.Proofs.Memory

/-! A command word is its three fields, and the decoder's tests of them are the three checks of R81: so each word is
refused by the first check it fails, or is the word of the operation it decodes to (R70, R81, R84). -/

namespace Sys2Proof

theorem reservedField_toNat (w : CmdWord) : (reservedField w).toNat = w.toNat / 512 := by
  have := w.isLt
  rw [reservedField, BitVec.extractLsb'_toNat, Nat.shiftRight_eq_div_pow]
  omega

theorem opField_toNat (w : CmdWord) : (opField w).toNat = w.toNat % 256 := by
  rw [opField, BitVec.extractLsb'_toNat, Nat.shiftRight_zero]

theorem bufField_eq_rx_iff (w : CmdWord) : bufField w = .rx ↔ w.toNat / 256 % 2 = 1 := by
  have hbit : w.getLsbD 8 = decide (w.toNat / 256 % 2 = 1) := Nat.testBit_eq_decide_div_mod_eq
  rw [bufField, hbit]
  by_cases h : w.toNat / 256 % 2 = 1 <;> simp [h]

/-- The three fields of R70 cover the word. -/
theorem eq_of_fields_eq {v w : CmdWord} (hreserved : reservedField v = reservedField w) (hop : opField v = opField w)
    (hbuf : bufField v = bufField w) : v = w := by
  have hhigh := congrArg BitVec.toNat hreserved
  have hlow := congrArg BitVec.toNat hop
  have hbit : v.toNat / 256 % 2 = 1 ↔ w.toNat / 256 % 2 = 1 := by
    rw [← bufField_eq_rx_iff, ← bufField_eq_rx_iff, hbuf]
  rw [reservedField_toNat, reservedField_toNat] at hhigh
  rw [opField_toNat, opField_toNat] at hlow
  exact BitVec.eq_of_toNat_eq (by omega)

/-! Each check of R81 as the decoder makes it. -/

theorem reservedClear_iff (w : CmdWord) : reservedClear w = true ↔ reservedField w = 0 := by
  rw [reservedClear, beq_iff_eq, ← reservedField_toNat, ← BitVec.toNat_inj]
  rfl

/-- The table of R80 and the list of R82 divide the 256 opcodes between them. -/
theorem opcodeInstr_eq_none_iff (op : Byte) (b : Buf) : opcodeInstr op b = none ↔ unassignedOpcode op.toNat = true := by
  cases b <;> revert op <;> decide

theorem opcodeAssigned_iff (w : CmdWord) :
    opcodeAssigned w = true ↔ ∃ i, opcodeInstr (opField w) (bufField w) = some i := by
  rw [← Option.ne_none_iff_exists', Ne, opcodeInstr_eq_none_iff, opField_toNat, opcodeAssigned, Bool.not_eq_true',
    Bool.not_eq_true]

/-- An operation read from the table has the opcode it was read at, and the buffer asked for unless its buffer is fixed. -/
theorem opcodeInstr_eq_some {op : Byte} {b : Buf} {i : Instr} (h : opcodeInstr op b = some i) :
    opcode i = op ∧ (i.buf? = none ∨ i.buf? = some b) := by
  unfold opcodeInstr at h
  split at h <;> cases h
  all_goals exact ⟨rfl, by simp [Instr.buf?]⟩

/-- The operations without a buffer are those whose opcode has the `BUF` column "0". -/
theorem fixedBufferOpcode_opcode (i : Instr) : fixedBufferOpcode (opcode i).toNat = i.buf?.isNone := by
  cases i <;> rfl

theorem bufferAllowed_iff {w : CmdWord} {i : Instr} (h : opcode i = opField w) :
    bufferAllowed w = true ↔ ¬ (i.buf? = none ∧ bufField w = .rx) := by
  rw [bufferAllowed, ← opField_toNat, ← h, fixedBufferOpcode_opcode, bufField_eq_rx_iff, Bool.not_eq_true',
    ← Bool.not_eq_true, Bool.and_eq_true, beq_iff_eq, Option.isNone_iff_eq_none]

/-- An operation whose opcode and buffer a word carries, the reserved bits being clear, has that word. -/
theorem encode_eq_of_fields {w : CmdWord} {i : Instr} (hreserved : reservedField w = 0) (hop : opcode i = opField w)
    (hbuf : i.buf?.getD .tx = bufField w) : encode i = w :=
  eq_of_fields_eq ((reservedField_encode i).trans hreserved.symm) ((opField_encode i).trans hop)
    ((bufField_encode i).trans hbuf)

theorem legalWord_iff (w : CmdWord) :
    legalWord w = true ↔ reservedClear w = true ∧ opcodeAssigned w = true ∧ bufferAllowed w = true := by
  rw [legalWord, Bool.and_eq_true, Bool.and_eq_true, and_assoc]

/-- Everything decoding a word can do: it is refused by the first check of R81 that it fails, or it is legal and is the
word of the operation it decodes to. -/
theorem decode_cases (w : CmdWord) :
    reservedClear w = false ∧ decode w = .error .reservedBits ∨
    reservedClear w = true ∧ opcodeAssigned w = false ∧ decode w = .error .unassignedOpcode ∨
    reservedClear w = true ∧ opcodeAssigned w = true ∧ bufferAllowed w = false ∧ decode w = .error .bufOnFixedOpcode ∨
    legalWord w = true ∧ ∃ i, decode w = .ok i ∧ encode i = w := by
  by_cases hreserved : reservedField w = 0
  case neg => exact .inl ⟨Bool.eq_false_iff.2 (mt (reservedClear_iff w).1 hreserved), if_neg hreserved⟩
  have hclear := (reservedClear_iff w).2 hreserved
  refine .inr ?_
  cases htable : opcodeInstr (opField w) (bufField w) with
  | none =>
    have hunassigned : ¬ opcodeAssigned w = true := by simp [opcodeAssigned_iff, htable]
    exact .inl ⟨hclear, Bool.eq_false_iff.2 hunassigned, by rw [decode, if_pos hreserved, htable]⟩
  | some i =>
    obtain ⟨hcode, hbuf⟩ := opcodeInstr_eq_some htable
    have hassigned := (opcodeAssigned_iff w).2 ⟨i, htable⟩
    have hdecode : decode w = if i.buf? = none ∧ bufField w = .rx then .error .bufOnFixedOpcode else .ok i := by
      rw [decode, if_pos hreserved, htable]
    refine .inr ?_
    by_cases hfixed : i.buf? = none ∧ bufField w = .rx
    · have hrefused := mt (bufferAllowed_iff hcode).1 (not_not.2 hfixed)
      exact .inl ⟨hclear, hassigned, Bool.eq_false_iff.2 hrefused, hdecode.trans (if_pos hfixed)⟩
    · have hlegal := (legalWord_iff w).2 ⟨hclear, hassigned, (bufferAllowed_iff hcode).2 hfixed⟩
      have hselected : i.buf?.getD .tx = bufField w := by
        obtain hnone | hsome := hbuf
        · cases hw : bufField w with
          | tx => rw [hnone]; rfl
          | rx => exact absurd ⟨hnone, hw⟩ hfixed
        · rw [hsome]; rfl
      exact .inr ⟨hlegal, i, hdecode.trans (if_neg hfixed), encode_eq_of_fields hreserved hcode hselected⟩

/-- A word decodes to an operation exactly where it is legal and is that operation's word. -/
theorem decode_eq_ok_iff (w : CmdWord) (i : Instr) : decode w = .ok i ↔ legalWord w = true ∧ encode i = w := by
  constructor
  · intro h
    obtain ⟨-, he⟩ | ⟨-, -, he⟩ | ⟨-, -, -, he⟩ | ⟨hlegal, j, hj, hword⟩ := decode_cases w
    · cases he.symm.trans h
    · cases he.symm.trans h
    · cases he.symm.trans h
    · cases hj.symm.trans h
      exact ⟨hlegal, hword⟩
  · rintro ⟨-, rfl⟩
    exact decode_encode i

theorem legalWord_encode (i : Instr) : legalWord (encode i) = true :=
  ((decode_eq_ok_iff (encode i) i).1 (decode_encode i)).1

/-- The illegal words are those the decoder rejects (R82). -/
theorem legalWord_eq_false_iff (w : CmdWord) : legalWord w = false ↔ ∃ e, decode w = .error e := by
  obtain ⟨hclear, hdecode⟩ | ⟨-, hassigned, hdecode⟩ | ⟨-, -, hallowed, hdecode⟩ | ⟨hlegal, i, hdecode, -⟩ :=
    decode_cases w
  · simp [legalWord, hclear, hdecode]
  · simp [legalWord, hassigned, hdecode]
  · simp [legalWord, hallowed, hdecode]
  · simp [hlegal, hdecode]

/-- Of the opcodes below 0x5E 30 are unassigned, and all 162 from there on (R82). -/
theorem countP_unassignedOpcode : (List.range 256).countP unassignedOpcode = 192 := by
  have hsplit : List.range 256 = List.range 94 ++ (List.range 162).map (94 + ·) := List.range_add (n := 94) (m := 162)
  have hlow : (List.range 94).countP unassignedOpcode = 30 := by decide
  have hhigh : ((List.range 162).map (94 + ·)).countP unassignedOpcode = 162 := by
    rw [List.countP_eq_length.2, List.length_map, List.length_range]
    intro op hop
    obtain ⟨k, hk, rfl⟩ := List.mem_map.1 hop
    have hbelow := List.mem_range.1 hk
    simp only [unassignedOpcode, Bool.or_eq_true, Bool.and_eq_true, decide_eq_true_eq]
    omega
  rw [hsplit, List.countP_append, hlow, hhigh]

end Sys2Proof

namespace Sys2Proof.Proofs.Encoding

open Sys2Proof.Machine

/-- Settles O1: of the four things decoding a word can do, each excludes the other three. -/
theorem decodeAndEncodeAgree : Obligations.DecodeAndEncodeAgree := by
  refine ⟨fun i => ⟨legalWord_encode i, decode_encode i⟩, fun w => ⟨decode_eq_ok_iff w, ?_⟩⟩
  obtain ⟨hclear, hdecode⟩ | ⟨hclear, hassigned, hdecode⟩ | ⟨hclear, hassigned, hallowed, hdecode⟩ |
    ⟨hlegal, i, hdecode, -⟩ := decode_cases w
  · simp [hdecode, hclear]
  · simp [hdecode, hclear, hassigned]
  · simp [hdecode, hclear, hassigned, hallowed]
  · obtain ⟨hclear, hassigned, hallowed⟩ := (legalWord_iff w).1 hlegal
    simp [hdecode, hclear, hassigned, hallowed]

/-- Settles O2: the legal words are the words of their operations, and each illegal one fails the check named. -/
theorem specWordsDecode : Obligations.SpecWordsDecode :=
  ⟨decode_encode .nop, decode_encode (.getLast .rx), decode_encode (.setSensor .tx), decode_encode (.setInt16 .tx),
    decode_encode (.setInt16 .rx), decode_encode (.getString .rx), decode_encode .wireEncode, decode_encode .cfgUpdateRx,
    rfl, rfl, rfl⟩

/-- Settles O3: an illegal word is one the decoder rejects, and the command port then fails with `ILLEGAL_OP`. -/
theorem illegalCommandOnlySetsStatus : Obligations.IllegalCommandOnlySetsStatus := by
  refine ⟨countP_unassignedOpcode, legalWord_eq_false_iff, fun s hillegal => ?_⟩
  obtain ⟨e, he⟩ := (legalWord_eq_false_iff s.inp.cmd).1 hillegal
  exact runCommand_of_error he

end Sys2Proof.Proofs.Encoding

/-! What the host's lines do (R84): each writes its registers, and a line of an operation then issues its word. -/

namespace Sys2Proof.Machine

@[simp] theorem hostActions_singleton (a : HostAction) (s : State) : hostActions [a] s = hostAction a s := by
  rw [hostActions]
  cases hostAction a s <;> rfl

/-- Issuing an operation runs it on the state with its word in `CMD` (R20, R84). -/
theorem hostActions_issueActions (i : Instr) (s : State) :
    hostActions (issueActions i) s = exec i { s with inp := { s.inp with cmd := encode i } } := by
  rw [issueActions, hostActions_cons_of_next rfl, hostActions_singleton]
  exact runCommand_of_ok (decode_encode i)

/-- `WR SIN` writes the port's first bytes and the count. -/
theorem hostActions_wrSinActions (bytes : List Byte) (s : State) :
    hostActions (wrSinActions bytes) s = .next { s with
      inp := { s.inp with sin := overwrite s.inp.sin bytes, sinLen := countOf bytes.length } } := by
  rw [wrSinActions, hostActions_cons_of_next rfl, hostActions_singleton]
  simp only [hostAction, State.setInp]

/-- `WR WIRE_IN` writes the port's first bytes and the count. -/
theorem hostActions_wrWireInActions (bytes : List Byte) (s : State) :
    hostActions (wrWireInActions bytes) s = .next { s with
      inp := { s.inp with wireIn := overwrite s.inp.wireIn bytes, wireInCount := countOf bytes.length } } := by
  rw [wrWireInActions, hostActions_cons_of_next rfl, hostActions_singleton]
  simp only [hostAction, State.setInp]

end Sys2Proof.Machine

namespace Sys2Proof.Proofs.Encoding

open Sys2Proof.Machine

/-- Settles O53: the operand lines are single writes, and a line of an operation is its operands' writes before the
issue of its word. -/
theorem assemblerLinesRunTheirOperation : Obligations.AssemblerLinesRunTheirOperation := by
  intro i v p bytes s
  refine ⟨rfl, rfl, hostActions_issueActions i s, hostActions_issueActions i _, hostActions_issueActions i _,
    ⟨overwrite s.inp.sin bytes, getElem_overwrite s.inp.sin bytes, hostActions_wrSinActions bytes s, ?_⟩,
    ⟨overwrite s.inp.wireIn bytes, getElem_overwrite s.inp.wireIn bytes, hostActions_wrWireInActions bytes s⟩⟩
  exact (hostActions_append (hostActions_wrSinActions bytes s)).trans (hostActions_issueActions i _)

end Sys2Proof.Proofs.Encoding

/-! The wire: what a permitted encode offers and a whole frame's decode stores, and a frame sent and received (R73, R211,
R212). -/

namespace Sys2Proof.Machine

/-- A permitted encode offers the whole frame (R212). -/
theorem execWireEncode_of_permitted {s : State} (hlive : s.halted = false) (hlen : s.tx.len ≤ 25)
    (hid : s.needsId = false) :
    exec .wireEncode s = .next { s with
      wireOut := s.tx.wireImage s.tx.len
      wireOutCount := BitVec.ofNat 6 (7 + s.tx.len)
      wireOutDest := s.tx.dest
      reqPending := s.nodeId == autoAddress || s.reqPending
      status := 0 } := by
  show execWireEncode s = _
  rw [execWireEncode, if_neg (by simp [hlive]), if_neg (show ¬ maxPayload < _ from not_lt.2 hlen),
    if_neg (by simp [hid])]
  rfl

/-- A whole frame on the wire port is stored in the RX frame (R211). -/
theorem execWireDecode_of_whole {s : State} (hlen : s.inp.wireLen ≤ 25)
    (hwhole : 7 + s.inp.wireLen ≤ s.inp.wireInCount.toNat) (hfits : s.inp.wireInCount.toNat ≤ 32) :
    exec .wireDecode s = .next { s with rx := s.rx.receive s.inp.wireIn s.inp.wireLen, status := 0 } := by
  show execWireDecode s = _
  rw [execWireDecode, if_neg (by simp only [headerSize, maxWire]; omega),
    if_neg (by simp only [headerSize, maxPayload]; omega)]
  rfl

theorem State.needsId_of_assigned {s : State} (h : s.nodeId ≠ autoAddress) : s.needsId = false := by
  simp [State.needsId, h]

/-- The length field of a frame on the wire port as a number (R211). -/
theorem Inputs.wireLen_eq (p : Inputs) : p.wireLen = p.wireIn[3].toNat / 8 := by
  have := p.wireIn[3].isLt
  rw [Inputs.wireLen, BitVec.extractLsb'_toNat, Nat.shiftRight_eq_div_pow]
  omega

/-- The bytes a frame puts on the wire: its header and the payload its length field announces (R73). -/
def Frame.wireBytes (f : Frame) : List Byte := (f.wireImage f.len).toList.take (7 + f.len)

section WireBytes

variable {f : Frame} {j : Nat}

theorem Frame.length_wireBytes (hlen : f.len ≤ 25) : f.wireBytes.length = 7 + f.len := by
  rw [Frame.wireBytes, List.length_take, Vector.length_toList]
  omega

/-- Handed to a receiving port, the wire bytes stand on it as they stand in the frame (R73). -/
theorem Frame.getElem_overwrite_wireBytes (hlen : f.len ≤ 25) (w : Vector Byte 32) (hj : j < 7 + f.len) :
    (overwrite w f.wireBytes)[j] = f[j] := by
  rw [getElem_overwrite, if_pos ((Frame.length_wireBytes hlen).symm ▸ hj)]
  simp [Frame.wireBytes, List.getD_eq_getElem?_getD, hj, show j < 32 by omega, Frame.getElem_wireImage]

/-- A port that the wire bytes are written to announces the frame's own length (R211). -/
theorem Frame.wireLen_of_wireBytes (hlen : f.len ≤ 25) {p : Inputs} {w : Vector Byte 32}
    (hin : p.wireIn = overwrite w f.wireBytes) : p.wireLen = f.len := by
  rw [Inputs.wireLen_eq, Frame.len_eq]
  simp only [hin, Frame.getElem_overwrite_wireBytes hlen w (show 3 < 7 + f.len by omega)]

/-- The header and the payload are received as they were sent. -/
theorem Frame.byte_receive_wireBytes (hlen : f.len ≤ 25) (g : Frame) (w : Vector Byte 32) (hj : j < 7 + f.len) :
    (g.receive (overwrite w f.wireBytes) f.len).byte j = f.byte j := by
  rw [Frame.byte, Frame.byte, dif_pos (by omega), dif_pos (by omega), Frame.getElem_receive, if_pos hj,
    dif_pos (by omega), Frame.getElem_overwrite_wireBytes hlen w hj]

/-- A terminator follows the received payload. -/
theorem Frame.byte_receive_terminator {n : Nat} (hn : n ≤ 25) (g : Frame) (wire : Vector Byte 32) :
    (g.receive wire n).byte (7 + n) = 0 := by
  rw [Frame.byte, dif_pos (by omega), Frame.getElem_receive, if_neg (lt_irrefl _), if_pos rfl]

end WireBytes

theorem countOf_toNat {n : Nat} (h : n ≤ 63) : (countOf n).toNat = n := by
  rw [countOf, BitVec.toNat_ofNat, Nat.min_eq_left h, Nat.mod_eq_of_lt (by omega)]

theorem execWireDecode_of_wireBytes {f : Frame} {u : State} {w : Vector Byte 32} (hlen : f.len ≤ 25)
    (hin : u.inp.wireIn = overwrite w f.wireBytes) (hcount : u.inp.wireInCount.toNat = 7 + f.len) :
    exec .wireDecode u = .next { u with rx := u.rx.receive (overwrite w f.wireBytes) f.len, status := 0 } := by
  have hwire := Frame.wireLen_of_wireBytes hlen hin
  rw [execWireDecode_of_whole (by omega) (by omega) (by omega), hwire, hin]

/-- Whatever the node in state `s` is, once its host has written the wire bytes of a frame it decodes that frame (R211). -/
theorem exists_wireDecode_of_wireBytes {f : Frame} (hlen : f.len ≤ 25) (s : State) :
    ∃ u v, hostActions (wrWireInActions f.wireBytes) s = .next u ∧ exec .wireDecode u = .next v ∧ v.status = 0 ∧
      (∀ j, j < 7 + f.len → v.rx.byte j = f.byte j) ∧ v.rx.byte (7 + f.len) = 0 := by
  have hcount : (countOf f.wireBytes.length).toNat = 7 + f.len := by
    rw [Frame.length_wireBytes hlen, countOf_toNat (by omega)]
  exact ⟨_, _, hostActions_wrWireInActions f.wireBytes s, execWireDecode_of_wireBytes hlen rfl hcount, rfl,
    fun j hj => Frame.byte_receive_wireBytes hlen s.rx s.inp.wireIn hj, Frame.byte_receive_terminator hlen s.rx _⟩

/-- An assigned node that is not halted offers the wire bytes of its TX frame (R212). -/
theorem exists_wireEncode_wireBytes {s : State} (hlive : s.halted = false) (hassigned : s.nodeId ≠ autoAddress)
    (hlen : s.tx.len ≤ 25) :
    ∃ t, exec .wireEncode s = .next t ∧ t.wireOut.toList.take t.wireOutCount.toNat = s.tx.wireBytes := by
  have hcount : (BitVec.ofNat 6 (7 + s.tx.len)).toNat = 7 + s.tx.len := by
    rw [BitVec.toNat_ofNat, Nat.mod_eq_of_lt (by omega)]
  exact ⟨_, execWireEncode_of_permitted hlive hlen (State.needsId_of_assigned hassigned), by
    simp only [hcount, Frame.wireBytes]⟩

theorem assemble_singleton (l : AsmLine) : assemble [l] = l.expand := List.flatMap_singleton _ _

end Sys2Proof.Machine

namespace Sys2Proof.Proofs.Encoding

open Sys2Proof.Machine

/-- Settles O33: the encoder offers the frame's wire bytes, and a decoder handed them gives the frame back. -/
theorem wireFrameRoundTrips : Obligations.WireFrameRoundTrips := by
  intro s hlive hassigned hlen
  rw [← Frame.len_eq] at hlen ⊢
  obtain ⟨t, hencode, hbytes⟩ := exists_wireEncode_wireBytes hlive hassigned hlen
  obtain ⟨u, v, hhost, hdecode, hreceived⟩ := exists_wireDecode_of_wireBytes hlen t
  refine ⟨t, u, v, hencode, ?_, hdecode, hreceived⟩
  rw [hbytes, assemble_singleton]
  exact hhost

end Sys2Proof.Proofs.Encoding

/-! The header fields: what a read answers and a write leaves, first for any operation that is a header read or a header
write, then for the seven packed fields of bytes 3 and 4 together (R72, R100). -/

namespace Sys2Proof.Machine

open Sys2Proof.Spec

theorem coded_opcode (i : Instr) : Coded i (opcode i).toNat := by
  have hreserved : (encode i).toNat / 512 = 0 := by
    rw [← reservedField_toNat, reservedField_encode]; rfl
  have hop : (encode i).toNat % 256 = (opcode i).toNat := by
    rw [← opField_toNat, opField_encode]
  have hbuf : (encode i).toNat / 256 % 2 = 1 ↔ i.buf? = some .rx := by
    rw [← bufField_eq_rx_iff, bufField_encode]
    cases i.buf? with
    | none => simp
    | some b => simp
  refine BitVec.eq_of_toNat_eq ?_
  rw [BitVec.toNat_ofNat]
  split_ifs with hrx
  · have := hbuf.2 hrx
    omega
  · have := mt hbuf.1 hrx
    omega

section HeaderOperations

variable {i : Instr} {b : Buf} {s : State} {v : Nat}

/-- An operation that answers a field zero-extended answers the field's number. -/
theorem answers_of_answer {n : Nat} {x : BitVec n} (hexec : exec i s = s.answer (x.setWidth 32)) (hx : x.toNat = v) :
    Answers i v s := by
  rw [Answers, hexec, State.answer_eq, ← hx, BitVec.ofNat_toNat]

theorem reads_of_answer {n : Nat} {x : BitVec n} (hexec : exec i s = s.answer (x.setWidth 32)) (hx : x.toNat = v) :
    Reads i (opcode i).toNat v s :=
  ⟨coded_opcode i, answers_of_answer hexec hx⟩

theorem setsByte_of_putHeader {k : Nat} {hk : k < 33} {x : Byte}
    (hexec : exec i s = s.putHeader b ((s.fb b).set k x hk)) (hx : x.toNat = v) :
    SetsByte i (opcode i).toNat b k v s := by
  refine ⟨coded_opcode i, (s.fb b).set k x hk, hexec.trans (State.putHeader_eq s b _), fun j hj => ?_⟩
  rw [Vector.getElem_set, ← hx, BitVec.ofNat_toNat, BitVec.setWidth_eq]
  simp only [eq_comm]

end HeaderOperations

/-- The packed header fields (R72). -/
inductive PackedField
  | version
  | signed
  | length
  | command
  | reqack
  | ack
  | ptype

namespace PackedField

/-- The header byte that holds the field. -/
def index : PackedField → Nat
  | version | signed | length => 3
  | command | reqack | ack | ptype => 4

/-- The field's lowest bit. -/
def lo : PackedField → Nat
  | version => 0
  | signed => 2
  | length => 3
  | command => 0
  | reqack => 3
  | ack => 4
  | ptype => 5

/-- The number of the field's bits. -/
def width : PackedField → Nat
  | version => 2
  | signed => 1
  | length => 5
  | command => 3
  | reqack => 1
  | ack => 1
  | ptype => 3

def getter (b : Buf) : PackedField → Instr
  | version => .getVersion b
  | signed => .getSigned b
  | length => .getLength b
  | command => .getCommand b
  | reqack => .getReqack b
  | ack => .getAck b
  | ptype => .getPtype b

def setter (b : Buf) : PackedField → Instr
  | version => .setVersion b
  | signed => .setSigned b
  | length => .setLength b
  | command => .setCommand b
  | reqack => .setReqack b
  | ack => .setAck b
  | ptype => .setPtype b

/-- The fields share no bit. -/
abbrev Disjoint (φ ψ : PackedField) : Prop :=
  φ.index ≠ ψ.index ∨ φ.lo + φ.width ≤ ψ.lo ∨ ψ.lo + ψ.width ≤ φ.lo

theorem Disjoint.symm {φ ψ : PackedField} (h : φ.Disjoint ψ) : ψ.Disjoint φ := by
  obtain hindex | hbits := h
  · exact .inl hindex.symm
  · exact .inr hbits.symm

theorem byte3_pairwise_disjoint : [version, signed, length].Pairwise Disjoint := by decide

theorem byte4_pairwise_disjoint : [command, reqack, ack, ptype].Pairwise Disjoint := by decide

theorem index_lt (φ : PackedField) : φ.index < 33 := by cases φ <;> decide

theorem width_pos (φ : PackedField) : 0 < φ.width := by cases φ <;> decide

theorem lo_add_width_le (φ : PackedField) : φ.lo + φ.width ≤ 8 := by cases φ <;> decide

end PackedField

/-- The bits of a packed field. -/
def Frame.field (f : Frame) (φ : PackedField) : BitVec φ.width :=
  (f[φ.index]'φ.index_lt).extractLsb' φ.lo φ.width

/-- The byte of a packed field, the field's bits replaced by the low bits of `a`. -/
def Frame.fieldByte (f : Frame) (φ : PackedField) (a : Word) : Byte :=
  setF (f[φ.index]'φ.index_lt) (φ.lo + φ.width - 1) φ.lo (fieldOperand φ.width a)

/-- The frame with a packed field written (R72). -/
def Frame.putField (f : Frame) (φ : PackedField) (a : Word) : Frame :=
  f.set φ.index (f.fieldByte φ a) φ.index_lt

/-- The getter of each packed field answers its bits (R104 to R110). -/
theorem PackedField.exec_getter (φ : PackedField) (b : Buf) (s : State) :
    exec (φ.getter b) s = s.answer (((s.fb b).field φ).setWidth 32) := by
  cases φ <;> rfl

/-- The setter of each packed field writes its bits (R116 to R122). -/
theorem PackedField.exec_setter (φ : PackedField) (b : Buf) (s : State) :
    exec (φ.setter b) s = s.putHeader b ((s.fb b).putField φ s.inp.arg0) := by
  cases φ <;> rfl

section PackedFields

variable (f : Frame) (φ : PackedField) (a : Word)

theorem Frame.field_toNat :
    (f.field φ).toNat = (f[φ.index]'φ.index_lt).toNat / 2 ^ φ.lo % 2 ^ φ.width := by
  rw [Frame.field, BitVec.extractLsb'_toNat, Nat.shiftRight_eq_div_pow]

/-- A written byte as a number: the bits above the field, the field, the bits below it. -/
theorem Frame.fieldByte_toNat :
    (f.fieldByte φ a).toNat =
      2 ^ φ.lo * (2 ^ φ.width * ((f[φ.index]'φ.index_lt).toNat / 2 ^ (φ.lo + φ.width)) + a.toNat % 2 ^ φ.width) +
        (f[φ.index]'φ.index_lt).toNat % 2 ^ φ.lo := by
  have hpos := φ.width_pos
  have hle := φ.lo_add_width_le
  rw [Frame.fieldByte, setF_toNat _ _ (by omega) (by omega), fieldOperand_toNat (by omega),
    show φ.lo + φ.width - 1 - φ.lo + 1 = φ.width by omega, Nat.sub_add_cancel (by omega), Nat.mod_mod]

theorem Frame.fieldByte_getLsbD {j : Nat} (hj : j < 8) :
    (f.fieldByte φ a).getLsbD j =
      if φ.lo ≤ j ∧ j < φ.lo + φ.width then a.getLsbD (j - φ.lo) else (f[φ.index]'φ.index_lt).getLsbD j := by
  have hpos := φ.width_pos
  rw [Frame.fieldByte, setF_getLsbD _ _ (by omega) j hj]
  by_cases hin : φ.lo ≤ j ∧ j < φ.lo + φ.width
  · rw [if_pos hin, if_pos (by omega)]
    simp [fieldOperand, show j - φ.lo < φ.width by omega, show j - φ.lo < 8 by omega]
  · rw [if_neg hin, if_neg (by omega)]

/-- Reading back the field just written. -/
theorem Frame.field_putField_same : (f.putField φ a).field φ = a.setWidth φ.width := by
  have hle := φ.lo_add_width_le
  ext k hk
  rw [Frame.field, Frame.putField, Vector.getElem_set_self, BitVec.getElem_extractLsb',
    Frame.fieldByte_getLsbD _ _ _ (by omega), if_pos (by omega), Nat.add_sub_cancel_left, BitVec.getElem_setWidth]

/-- Writing one field leaves a field that shares no bit with it. -/
theorem Frame.field_putField_of_disjoint {φ ψ : PackedField} (h : φ.Disjoint ψ) :
    (f.putField φ a).field ψ = f.field ψ := by
  have hle := ψ.lo_add_width_le
  ext k hk
  simp only [Frame.field, Frame.putField, BitVec.getElem_extractLsb', Vector.getElem_set]
  split_ifs with hindex
  · rw [Frame.fieldByte_getLsbD _ _ _ (by omega), if_neg (by omega)]
    simp only [hindex]
  · rfl

end PackedFields

theorem reads_getter (φ : PackedField) (b : Buf) (s : State) {v : Nat} (hv : ((s.fb b).field φ).toNat = v) :
    Reads (φ.getter b) (opcode (φ.getter b)).toNat v s :=
  reads_of_answer (PackedField.exec_getter φ b s) hv

theorem setsByte_setter (φ : PackedField) (b : Buf) (s : State) {v : Nat}
    (hv : ((s.fb b).fieldByte φ s.inp.arg0).toNat = v) :
    SetsByte (φ.setter b) (opcode (φ.setter b)).toNat b φ.index v s :=
  setsByte_of_putHeader (PackedField.exec_setter φ b s) hv

/-! Lines of setters in turn (R125). A packed field with a number stands for the line that sets the one to the other. -/

/-- The line that sets a packed field. -/
def PackedField.line (b : Buf) (w : PackedField × Nat) : AsmLine := .opV (w.1.setter b) (BitVec.ofNat 32 w.2)

/-- The frame with packed fields written in turn. -/
def Frame.putFields (f : Frame) (ws : List (PackedField × Nat)) : Frame :=
  ws.foldl (fun g w => g.putField w.1 (BitVec.ofNat 32 w.2)) f

theorem Frame.putFields_cons (f : Frame) (w : PackedField × Nat) (ws : List (PackedField × Nat)) :
    f.putFields (w :: ws) = (f.putField w.1 (BitVec.ofNat 32 w.2)).putFields ws := rfl

theorem exists_hostActions_line (b : Buf) (w : PackedField × Nat) (s : State) :
    ∃ t, hostActions (PackedField.line b w).expand s = .next t ∧
      t.fb b = (s.fb b).putField w.1 (BitVec.ofNat 32 w.2) := by
  rw [PackedField.line, AsmLine.expand, hostActions_cons_of_next rfl, hostActions_issueActions, PackedField.exec_setter]
  refine ⟨_, rfl, ?_⟩
  rw [State.fb_finish, State.fb_setFb]
  cases b <;> rfl

/-- The lines complete, and leave the frame with their fields written in turn. -/
theorem exists_hostActions_lines (b : Buf) (ws : List (PackedField × Nat)) (s : State) :
    ∃ t, hostActions (assemble (ws.map (PackedField.line b))) s = .next t ∧ t.fb b = (s.fb b).putFields ws := by
  induction ws generalizing s with
  | nil => exact ⟨s, rfl, rfl⟩
  | cons w ws ih =>
    obtain ⟨t, hline, hframe⟩ := exists_hostActions_line b w s
    obtain ⟨u, hlines, hframes⟩ := ih t
    refine ⟨u, (hostActions_append hline).trans hlines, ?_⟩
    rw [hframes, hframe, Frame.putFields_cons]

theorem Frame.field_putFields_of_disjoint {ws : List (PackedField × Nat)} {φ : PackedField}
    (h : ∀ w ∈ ws, w.1.Disjoint φ) (f : Frame) : (f.putFields ws).field φ = f.field φ := by
  induction ws generalizing f with
  | nil => rfl
  | cons w ws ih =>
    obtain ⟨hw, hws⟩ := List.forall_mem_cons.1 h
    rw [Frame.putFields_cons, ih hws, Frame.field_putField_of_disjoint f _ hw]

/-- Of fields that share no bit, each holds the number it was set to: the writes after it leave it. -/
theorem Frame.field_putFields {ws : List (PackedField × Nat)} (h : ws.Pairwise fun w x => w.1.Disjoint x.1)
    {w : PackedField × Nat} (hw : w ∈ ws) (f : Frame) :
    (f.putFields ws).field w.1 = (BitVec.ofNat 32 w.2).setWidth w.1.width := by
  induction h generalizing f with
  | nil => cases hw
  | cons hhead _ ih =>
    rw [Frame.putFields_cons]
    obtain rfl | hw := List.mem_cons.1 hw
    · rw [Frame.field_putFields_of_disjoint fun x hx => (hhead x hx).symm, Frame.field_putField_same]
    · exact ih hw _

/-- The setters of fields that share no bit, in any order, and then their getters: each answers the number its field was
set to, where that fits the field. -/
theorem setters_getters_roundTrip {b : Buf} {s : State} {ws : List (PackedField × Nat)} {lines : List AsmLine}
    (hdisjoint : (ws.map Prod.fst).Pairwise PackedField.Disjoint) (hlines : lines.Perm (ws.map (PackedField.line b))) :
    ∃ t, hostActions (assemble lines) s = .next t ∧
      ∀ w ∈ ws, w.2 < 2 ^ w.1.width → Answers (w.1.getter b) w.2 t := by
  obtain ⟨xs, rfl, hperm⟩ : ∃ xs, lines = List.map (PackedField.line b) xs ∧ xs.Perm ws :=
    (congrFun₂ (List.eq_map_comp_perm (PackedField.line b)) lines ws).mpr hlines
  have hordered := (hperm.pairwise_iff fun h => h.symm).2 (List.pairwise_map.1 hdisjoint)
  obtain ⟨t, hrun, hframe⟩ := exists_hostActions_lines b xs s
  refine ⟨t, hrun, fun w hw hfits => answers_of_answer (PackedField.exec_getter w.1 b t) ?_⟩
  have hwidth : 2 ^ w.1.width ≤ 2 ^ 32 := Nat.pow_le_pow_right (by omega) (by have := w.1.lo_add_width_le; omega)
  rw [hframe, Frame.field_putFields hordered (hperm.mem_iff.2 hw), BitVec.toNat_setWidth, BitVec.toNat_ofNat,
    Nat.mod_eq_of_lt (hfits.trans_le hwidth), Nat.mod_eq_of_lt hfits]

end Sys2Proof.Machine

namespace Sys2Proof.Proofs.HeaderFields

open Sys2Proof.Machine

/-- Settles O12: each getter answers one byte of the frame. -/
theorem headerByteGettersAnswerTheirByte : Obligations.HeaderByteGettersAnswerTheirByte :=
  fun _ _ => ⟨reads_of_answer rfl rfl, reads_of_answer rfl rfl, reads_of_answer rfl rfl, reads_of_answer rfl rfl,
    reads_of_answer rfl rfl⟩

/-- Settles O14: each setter writes the low byte of `ARG0` to one byte of the frame. -/
theorem headerByteSettersWriteOneByte : Obligations.HeaderByteSettersWriteOneByte := by
  intro b s
  have hlow := lowByte_toNat s.inp.arg0
  exact ⟨setsByte_of_putHeader rfl hlow, setsByte_of_putHeader rfl hlow, setsByte_of_putHeader rfl hlow,
    setsByte_of_putHeader rfl hlow, setsByte_of_putHeader rfl hlow⟩

/-- Settles O13: the packed bytes as quotients and remainders; the topmost field of each needs no remainder. -/
theorem headerBitfieldGettersAnswerTheirBits : Obligations.HeaderBitfieldGettersAnswerTheirBits := by
  intro b s
  refine ⟨reads_getter .version b s ?_, reads_getter .signed b s ?_, reads_getter .length b s ?_,
    reads_getter .command b s ?_, reads_getter .reqack b s ?_, reads_getter .ack b s ?_, reads_getter .ptype b s ?_⟩
  case refine_3 => exact Frame.len_eq _
  case refine_7 => exact Frame.ptype_toNat _
  all_goals
    rw [Frame.field_toNat]
    simp only [PackedField.index, PackedField.lo, PackedField.width]
    omega

/-- Settles O15: each written byte as the bits above the field, the field and the bits below it. -/
theorem headerBitfieldSettersWriteOnlyTheirBits : Obligations.HeaderBitfieldSettersWriteOnlyTheirBits := by
  intro b s x y a
  refine ⟨setsByte_setter .version b s ?_, setsByte_setter .signed b s ?_, setsByte_setter .length b s ?_,
    setsByte_setter .command b s ?_, setsByte_setter .reqack b s ?_, setsByte_setter .ack b s ?_,
    setsByte_setter .ptype b s ?_⟩
  all_goals
    rw [Frame.fieldByte_toNat]
    simp only [PackedField.index, PackedField.lo, PackedField.width]
    omega

/-- Settles O16: the fields of either byte share no bit. -/
theorem packedHeaderBytesRoundTrip : Obligations.PackedHeaderBytesRoundTrip := by
  intro b s
  refine ⟨fun v sg n lines hv hsg hn hlines => ?_, fun c r a p lines hc hr ha hp hlines => ?_⟩
  · obtain ⟨t, hrun, hanswers⟩ := setters_getters_roundTrip (s := s)
      (ws := [(.version, v), (.signed, sg), (.length, n)]) PackedField.byte3_pairwise_disjoint hlines
    exact ⟨t, hrun, hanswers (.version, v) (by simp) hv, hanswers (.signed, sg) (by simp) hsg,
      hanswers (.length, n) (by simp) hn⟩
  · obtain ⟨t, hrun, hanswers⟩ := setters_getters_roundTrip (s := s)
      (ws := [(.command, c), (.reqack, r), (.ack, a), (.ptype, p)]) PackedField.byte4_pairwise_disjoint hlines
    exact ⟨t, hrun, hanswers (.command, c) (by simp) hc, hanswers (.reqack, r) (by simp) hr,
      hanswers (.ack, a) (by simp) ha, hanswers (.ptype, p) (by simp) hp⟩

end Sys2Proof.Proofs.HeaderFields

/-! The payload setters: the bytes of an operand, what `SETPAYLOAD` leaves in the frame, and what a scalar or a byte-string
setter stores with it (R140, R150). -/

namespace Sys2Proof.Machine

open Sys2Proof.Spec

/-- The slice of a word at byte `k` is the byte's number. -/
theorem extractLsb'_byte {n : Nat} (v : BitVec n) (k : Nat) :
    v.extractLsb' (8 * k) 8 = BitVec.ofNat 8 (v.toNat / 256 ^ k) := by
  refine BitVec.eq_of_toNat_eq ?_
  rw [BitVec.extractLsb'_toNat, BitVec.toNat_ofNat, Nat.shiftRight_eq_div_pow, Nat.pow_mul]

theorem lowByte_eq_leBytes (a : Word) : [lowByte a] = leBytes 1 a.toNat :=
  List.map_congr_left (l := List.range 1) fun k _ => extractLsb'_byte a k

theorem bytes32_eq_leBytes (a : Word) : bytes32 a = leBytes 4 a.toNat :=
  List.map_congr_left (l := List.range 4) fun k _ => extractLsb'_byte a k

/-- The upper half of the operand is ignored (R143, R144). -/
theorem bytes16_eq_leBytes (a : Word) : bytes16 (a.extractLsb' 0 16) = leBytes 2 a.toNat := by
  have hslice : ∀ k < 2, (a.extractLsb' 0 16).extractLsb' (8 * k) 8 = BitVec.ofNat 8 (a.toNat / 256 ^ k) := by
    intro k hk
    rw [← extractLsb'_byte]
    ext j hj
    simp [BitVec.getElem_extractLsb', show 8 * k + j < 16 by omega]
  exact List.map_congr_left (l := List.range 2) fun k hk => hslice k (List.mem_range.1 hk)

@[simp] theorem length_leBytes (n v : Nat) : (leBytes n v).length = n := by simp [leBytes]

/-- `SETPAYLOAD` with its two header writes as numbers (R72, R140). -/
theorem writesPayload_setPayload (f : Frame) (tag : BitVec 3) (bytes : List Byte) :
    WritesPayload f (f.setPayload tag bytes) tag.toNat bytes := by
  have hlength : setF f[3] 7 3 (BitVec.ofNat 8 bytes.length) = BitVec.ofNat 8 (bytes.length * 8 + f[3].toNat % 8) := by
    have := f[3].isLt
    refine BitVec.eq_of_toNat_eq ?_
    rw [setF_toNat _ _ (by omega) (by omega), BitVec.toNat_ofNat, BitVec.toNat_ofNat]
    omega
  have htag : setF f[4] 7 5 (tag.setWidth 8) = BitVec.ofNat 8 (tag.toNat * 32 + f[4].toNat % 32) := by
    have := f[4].isLt
    refine BitVec.eq_of_toNat_eq ?_
    rw [setF_toNat _ _ (by omega) (by omega), BitVec.toNat_setWidth, BitVec.toNat_ofNat]
    omega
  intro j hj
  rw [Frame.getElem_setPayload, hlength, htag]

/-- The frame holds a payload of `n` bytes under the tag, with its terminator (R150). -/
structure Frame.HoldsPayload (f : Frame) (tag n : Nat) : Prop where
  length : f[3].toNat / 8 = n
  tag : f[4].toNat / 32 = tag
  terminator : f.byte (7 + n) = 0

theorem holdsPayload_of_writesPayload {f g : Frame} {tag : Nat} {bytes : List Byte} (h : WritesPayload f g tag bytes)
    (htag : tag < 8) (hlen : bytes.length ≤ 25) : g.HoldsPayload tag bytes.length where
  length := by
    rw [h 3 (by omega), if_pos rfl, BitVec.toNat_ofNat]
    omega
  tag := by
    rw [h 4 (by omega), if_neg (by omega), if_pos rfl, BitVec.toNat_ofNat]
    omega
  terminator := by
    rw [Frame.byte, dif_pos (by omega), h _ (by omega), if_neg (by omega), if_neg (by omega), if_neg (by omega),
      if_neg (by omega), if_pos (by omega)]

/-- Wherever the operation ends `OK` or `TRUNCATED`, frame `b` holds a payload of `n` bytes under the tag (R150). -/
def EstablishesPayload (i : Instr) (b : Buf) (tag n : Nat) (s : State) : Prop :=
  ∀ t, exec i s = .next t → t.status = 0 ∨ t.status = 2 → (t.fb b).HoldsPayload tag n ∧ n ≤ 25

section PayloadOperations

variable {i : Instr} {op : Nat} {b : Buf} {s : State} {bytes : List Byte}

theorem setsPayload_of_putPayload {tag : BitVec 3} {st : Status} (hexec : exec i s = s.putPayload b tag bytes st) :
    SetsPayload i (opcode i).toNat b tag.toNat bytes st.code s :=
  ⟨coded_opcode i, (s.fb b).setPayload tag bytes, hexec.trans (State.putPayload_eq s b tag bytes st),
    writesPayload_setPayload (s.fb b) tag bytes⟩

theorem setsPayload_of_scalar (tag : PayloadTag) (hexec : exec i s = s.putPayload b tag.code bytes .ok) :
    SetsPayload i (opcode i).toNat b tag.code.toNat bytes 0 s :=
  setsPayload_of_putPayload hexec

/-- What a string or custom setter stores, by the length it is given (R141, R147). -/
theorem setsPayload_of_putSin {tag : PayloadTag} (hexec : exec i s = s.putSin b tag) :
    if 50 < s.inp.sinLen.toNat then Coded i (opcode i).toNat ∧ exec i s = .next { s with status := 9 }
    else if 25 < s.inp.sinLen.toNat then
      SetsPayload i (opcode i).toNat b tag.code.toNat (s.inp.sin.toList.take 25) 2 s
    else SetsPayload i (opcode i).toNat b tag.code.toNat (s.inp.sin.toList.take s.inp.sinLen.toNat) 0 s := by
  rw [State.putSin_eq] at hexec
  split_ifs at hexec ⊢
  · exact ⟨coded_opcode i, hexec.trans (State.fail_eq s .badOperand)⟩
  · exact setsPayload_of_putPayload hexec
  · exact setsPayload_of_putPayload hexec

theorem establishesPayload_of_setsPayload {tag n : Nat} {st : Byte} (h : SetsPayload i op b tag bytes st s)
    (hlen : bytes.length = n) (htag : tag < 8) (hn : n ≤ 25) : EstablishesPayload i b tag n s := by
  obtain ⟨-, g, hexec, hwrites⟩ := h
  intro t ht _
  cases hexec.symm.trans ht
  have hframe : State.fb { s.setFb b g with status := st } b = g := by
    rw [State.fb_withStatus, State.fb_setFb]
  rw [hframe]
  exact ⟨hlen ▸ holdsPayload_of_writesPayload hwrites htag (hlen ▸ hn), hn⟩

/-- A byte-string setter that is not refused stores at most 25 bytes of the 50 on the port. -/
theorem establishesPayload_of_putSin {tag : PayloadTag} (hexec : exec i s = s.putSin b tag) :
    EstablishesPayload i b tag.code.toNat (min s.inp.sinLen.toNat 25) s := by
  have hspec := setsPayload_of_putSin hexec
  have htag := tag.code.isLt
  split_ifs at hspec with hover hcut
  · intro t ht hdone
    cases hspec.2.symm.trans ht
    exact absurd hdone (show ¬ ((9 : Byte) = 0 ∨ (9 : Byte) = 2) by decide)
  · exact establishesPayload_of_setsPayload hspec (by rw [List.length_take, Vector.length_toList]; omega) htag (by omega)
  · exact establishesPayload_of_setsPayload hspec (by rw [List.length_take, Vector.length_toList]; omega) htag (by omega)

end PayloadOperations

end Sys2Proof.Machine

namespace Sys2Proof.Proofs.PayloadSet

open Sys2Proof.Machine Sys2Proof.Spec

/-- Settles O17: each setter is one `SETPAYLOAD` of the operand's bytes. -/
theorem scalarPayloadSettersStoreLittleEndian : Obligations.ScalarPayloadSettersStoreLittleEndian := by
  intro b s a
  simp only [a, ← lowByte_eq_leBytes, ← bytes16_eq_leBytes, ← bytes32_eq_leBytes]
  exact ⟨setsPayload_of_scalar .byte rfl, setsPayload_of_scalar .int16 rfl, setsPayload_of_scalar .uint16 rfl,
    setsPayload_of_scalar .long32 rfl, setsPayload_of_scalar .ulong32 rfl, setsPayload_of_scalar .float32 rfl,
    setsPayload_of_scalar .custom rfl⟩

/-- Settles O18: both setters are the same operation under their own tags. -/
theorem byteStringSettersTruncateOrRefuse : Obligations.ByteStringSettersTruncateOrRefuse := by
  intro b s i op tag hmem
  simp only [List.mem_cons, List.not_mem_nil, or_false, Prod.mk.injEq] at hmem
  obtain ⟨rfl, rfl, rfl⟩ | ⟨rfl, rfl, rfl⟩ := hmem
  · exact setsPayload_of_putSin (tag := .string) rfl
  · exact setsPayload_of_putSin (tag := .custom) rfl

/-- Settles O19: a scalar setter stores as many bytes as its tag's length, a byte-string setter at most 25. -/
theorem payloadSettersEstablishTheLengthInvariant : Obligations.PayloadSettersEstablishTheLengthInvariant := by
  intro b s t i tag len? hmem hexec hdone
  obtain ⟨hbyte, hint16, huint16, hlong32, hulong32, hfloat32, hpresentation⟩ :=
    scalarPayloadSettersStoreLittleEndian b s
  have hall : ∀ p ∈ payloadSetters b,
      EstablishesPayload p.1 b p.2.1 (p.2.2.getD (min s.inp.sinLen.toNat 25)) s := by
    simp only [payloadSetters, List.forall_mem_cons, Option.getD_some, Option.getD_none]
    exact ⟨establishesPayload_of_putSin (tag := .string) rfl,
      establishesPayload_of_setsPayload hbyte (by simp) (by decide) (by decide),
      establishesPayload_of_setsPayload hint16 (by simp) (by decide) (by decide),
      establishesPayload_of_setsPayload huint16 (by simp) (by decide) (by decide),
      establishesPayload_of_setsPayload hlong32 (by simp) (by decide) (by decide),
      establishesPayload_of_setsPayload hulong32 (by simp) (by decide) (by decide),
      establishesPayload_of_putSin (tag := .custom) rfl,
      establishesPayload_of_setsPayload hfloat32 (by simp) (by decide) (by decide),
      establishesPayload_of_setsPayload hpresentation (by simp) (by decide) (by decide), by simp⟩
  obtain ⟨hholds, hle⟩ := hall _ hmem t hexec hdone
  have hlen := hholds.length
  exact ⟨hlen, hlen.trans_le hle, hholds.tag, hlen ▸ hholds.terminator⟩

end Sys2Proof.Proofs.PayloadSet

/-! Payload values as numbers, and what a scalar getter answers with them (R53, R170). -/

namespace Sys2Proof.Machine

open Sys2Proof.Spec

theorem Frame.pl_zero_toNat (f : Frame) : (f.pl 0).toNat = leValue f 1 := rfl

theorem Frame.value16_toNat (f : Frame) : f.value16.toNat = leValue f 2 := by
  rw [Frame.value16, le16_toNat]
  rfl

theorem Frame.value32_toNat (f : Frame) : f.value32.toNat = leValue f 4 := by
  rw [Frame.value32, le32_toNat]
  rfl

theorem toInt_eq_signedValue {w : Nat} (v : BitVec w) (hw : 0 < w) : v.toInt = signedValue w v.toNat := by
  have hpow : 2 ^ w = 2 * 2 ^ (w - 1) := by rw [← pow_succ', Nat.sub_add_cancel hw]
  rw [BitVec.toInt_eq_toNat_cond, signedValue]
  push_cast
  split_ifs <;> omega

theorem answersTyped_of_getTyped {i : Instr} {b : Buf} {size : Nat} {v w : Word} {s : State} (tag : PayloadTag)
    (hexec : exec i s = s.getTyped b tag size v) (hv : v = w) :
    AnswersTyped i (opcode i).toNat b tag.code.toNat size w s := by
  refine ⟨coded_opcode i, ?_⟩
  rw [hexec, State.getTyped_eq, hv]
  simp only [Frame.holds_iff]

end Sys2Proof.Machine

/-! Decimal text (R179): the recursion of `decNat` on the number without its last digit, and the induction it gives. -/

namespace Sys2Proof.Machine

open Sys2Proof.Spec

/-- The bound on the number of digits does not matter where it suffices. -/
theorem decDigits_eq_of_lt {a b n : Nat} (ha : n < a) (hb : n < b) : decDigits a n = decDigits b n := by
  induction a generalizing b n with
  | zero => omega
  | succ a ih =>
    cases b with
    | zero => omega
    | succ b =>
      rw [decDigits, decDigits]
      split_ifs
      · rfl
      · rw [ih (b := b) (by omega) (by omega)]

theorem decNat_of_lt {n : Nat} (h : n < 10) : decNat n = [digitChar n] := by
  rw [decNat, decDigits, if_pos h]

theorem decNat_of_ge {n : Nat} (h : 10 ≤ n) : decNat n = decNat (n / 10) ++ [digitChar (n % 10)] := by
  rw [decNat, decDigits, if_neg (by omega), decDigits_eq_of_lt (b := n / 10 + 1) (by omega) (by omega), decNat]

/-- Induction on the digits of a number, from the last one on. -/
theorem decNat_induction {P : Nat → Prop} (digit : ∀ n < 10, P n) (more : ∀ n, 10 ≤ n → P (n / 10) → P n)
    (n : Nat) : P n := by
  induction n using Nat.strong_induction_on with
  | h n ih =>
    by_cases h : n < 10
    · exact digit n h
    · exact more n (by omega) (ih (n / 10) (by omega))

theorem isDigit_digitChar {d : Nat} (h : d < 10) : IsDigit (digitChar d) := by
  rw [IsDigit, digitChar_toNat h]
  omega

theorem decimalValue_append_digit (text : List Byte) {d : Nat} (h : d < 10) :
    decimalValue (text ++ [digitChar d]) = 10 * decimalValue text + d := by
  simp [decimalValue, digitChar_toNat h]

theorem isDigit_of_mem_decNat (n : Nat) : ∀ c ∈ decNat n, IsDigit c := by
  induction n using decNat_induction with
  | digit n h => simpa [decNat_of_lt h] using isDigit_digitChar h
  | more n h ih =>
    rw [decNat_of_ge h, List.forall_mem_append]
    exact ⟨ih, by simpa using isDigit_digitChar (Nat.mod_lt n (by omega))⟩

theorem decimalValue_decNat (n : Nat) : decimalValue (decNat n) = n := by
  induction n using decNat_induction with
  | digit n h => simpa [decNat_of_lt h, decimalValue] using decimalValue_append_digit [] h
  | more n h ih =>
    rw [decNat_of_ge h, decimalValue_append_digit _ (Nat.mod_lt n (by omega)), ih]
    omega

theorem decNat_ne_nil (n : Nat) : decNat n ≠ [] := by
  by_cases h : n < 10
  · simp [decNat_of_lt h]
  · simp [decNat_of_ge (not_lt.1 h)]

/-- Only zero begins with the digit 0. -/
theorem eq_zero_of_head?_decNat {n : Nat} (hhead : (decNat n).head? = some 0x30) : n = 0 := by
  induction n using decNat_induction with
  | digit n h =>
    rw [decNat_of_lt h, List.head?_cons, Option.some_inj] at hhead
    have := digitChar_toNat h
    rw [hhead] at this
    simpa using this
  | more n h ih =>
    rw [decNat_of_ge h, List.head?_append_of_ne_nil _ (decNat_ne_nil _)] at hhead
    have := ih hhead
    omega

theorem length_decNat_le {n p : Nat} (hp : 0 < p) (hn : n < 10 ^ p) : (decNat n).length ≤ p := by
  induction n using decNat_induction generalizing p with
  | digit n h => simpa [decNat_of_lt h] using Nat.succ_le_of_lt hp
  | more n h ih =>
    obtain ⟨q, rfl⟩ : ∃ q, p = q + 1 := ⟨p - 1, by omega⟩
    have hq : 0 < q := Nat.pos_of_ne_zero fun h0 => by
      rw [h0] at hn
      omega
    have := ih hq (Nat.div_lt_of_lt_mul (by rwa [← pow_succ']))
    rw [decNat_of_ge h, List.length_append, List.length_singleton]
    omega

theorem decInt_eq (v : Int) : decInt v = (if v < 0 then [0x2D] else []) ++ decNat v.natAbs := by
  rw [decInt]
  split_ifs <;> rfl

theorem length_decInt_le {v : Int} {p : Nat} (hp : 0 < p) (hv : v.natAbs < 10 ^ p) : (decInt v).length ≤ p + 1 := by
  have := length_decNat_le hp hv
  rw [decInt_eq, List.length_append]
  split_ifs
  · rw [List.length_singleton]
    omega
  · rw [List.length_nil]
    omega

end Sys2Proof.Machine

/-! Hex text and its inverse (R180, R185). -/

namespace Sys2Proof.Machine

open Sys2Proof.Spec

theorem hexDigit_eq_hexCharOf (d : BitVec 4) : hexDigit d = hexCharOf d.toNat := by
  rw [hexDigit, hexCharOf]
  split_ifs with h
  · rfl
  · congr 1
    omega

theorem highNibble_toNat (x : Byte) : (x.extractLsb' 4 4).toNat = x.toNat / 16 := by
  have := x.isLt
  rw [BitVec.extractLsb'_toNat, Nat.shiftRight_eq_div_pow]
  omega

theorem lowNibble_toNat (x : Byte) : (x.extractLsb' 0 4).toNat = x.toNat % 16 := by
  simp

theorem getD_hexText (bytes : List Byte) {i : Nat} (h : i < bytes.length) :
    (hexText bytes).getD (2 * i) 0 = hexCharOf ((bytes.getD i 0).toNat / 16) ∧
      (hexText bytes).getD (2 * i + 1) 0 = hexCharOf ((bytes.getD i 0).toNat % 16) := by
  induction bytes generalizing i with
  | nil => simp at h
  | cons x bytes ih =>
    rw [hexText_cons, hexDigit_eq_hexCharOf, hexDigit_eq_hexCharOf, highNibble_toNat, lowNibble_toNat]
    cases i with
    | zero => exact ⟨rfl, rfl⟩
    | succ i => exact ih (by simpa using h)

/-- The three ranges of hex characters, each with its values (R185). -/
theorem hexValue?_of_isHex {c : Byte} (h : IsHex c) :
    ∃ d, hexValue? c = some d ∧ d.toNat = hexDigitValue c := by
  simp only [hexValue?, hexDigitValue]
  obtain hdecimal | hupper | hlower := h
  · rw [if_pos hdecimal, if_pos hdecimal.2]
    exact ⟨_, rfl, by rw [BitVec.toNat_ofNat]; omega⟩
  · rw [if_neg (by omega), if_pos hupper, if_neg (by omega), if_pos hupper.2]
    exact ⟨_, rfl, by rw [BitVec.toNat_ofNat]; omega⟩
  · rw [if_neg (by omega), if_neg (by omega), if_pos hlower, if_neg (by omega), if_neg (by omega)]
    exact ⟨_, rfl, by rw [BitVec.toNat_ofNat]; omega⟩

theorem hexValue?_of_not_isHex {c : Byte} (h : ¬ IsHex c) : hexValue? c = none := by
  simp only [hexValue?]
  rw [if_neg (by tauto), if_neg (by tauto), if_neg (by tauto)]

/-- The text is the hex characters of the bytes, of either case, the high nibble first. -/
structure DenotesBytes (text bytes : List Byte) : Prop where
  length : text.length = 2 * bytes.length
  nibbles : ∀ i < bytes.length, (bytes.getD i 0).toNat =
    16 * hexDigitValue (text.getD (2 * i) 0) + hexDigitValue (text.getD (2 * i + 1) 0)

theorem append_nibble_toNat (h l : BitVec 4) : (h ++ l).toNat = 16 * h.toNat + l.toNat := by
  rw [BitVec.toNat_append, ← Nat.shiftLeft_add_eq_or_of_lt l.isLt, Nat.shiftLeft_eq, mul_comm]

theorem DenotesBytes.cons {a c : Byte} {h l : BitVec 4} {text bytes : List Byte} (hh : h.toNat = hexDigitValue a)
    (hl : l.toNat = hexDigitValue c) (hrest : DenotesBytes text bytes) :
    DenotesBytes (a :: c :: text) ((h ++ l) :: bytes) where
  length := by simp [hrest.length, mul_add]
  nibbles
    | 0, _ => by rw [List.getD_cons_zero, append_nibble_toNat, hh, hl]; rfl
    | i + 1, hi => hrest.nibbles i (by simpa using hi)

/-- Everything the decoder of hex text can answer: none for a text that is no hex text, or the bytes it denotes. -/
theorem hexBytes?_cases : ∀ text : List Byte,
    hexBytes? text = none ∧ (text.length % 2 = 1 ∨ ∃ c ∈ text, ¬ IsHex c) ∨
      ∃ bytes, hexBytes? text = some bytes ∧ (∀ c ∈ text, IsHex c) ∧ DenotesBytes text bytes
  | [] => .inr ⟨[], rfl, by simp, rfl, by simp⟩
  | [_] => .inl ⟨rfl, .inl rfl⟩
  | a :: c :: text => by
    by_cases hhex : IsHex a ∧ IsHex c
    · obtain ⟨h, hh, hhval⟩ := hexValue?_of_isHex hhex.1
      obtain ⟨l, hl, hlval⟩ := hexValue?_of_isHex hhex.2
      obtain ⟨hnone, hbad⟩ | ⟨bytes, hsome, hall, hdenotes⟩ := hexBytes?_cases text
      · refine .inl ⟨by simp [hexBytes?, hnone], hbad.imp ?_ ?_⟩
        · simp only [List.length_cons]
          omega
        · exact fun ⟨x, hx, hnot⟩ => ⟨x, by simp [hx], hnot⟩
      · refine .inr ⟨_, by simp only [hexBytes?, hh, hl, hsome], ?_, hdenotes.cons hhval hlval⟩
        simpa only [List.forall_mem_cons] using ⟨hhex.1, hhex.2, hall⟩
    · refine .inl ?_
      obtain ha | hc := not_and_or.1 hhex
      · exact ⟨by simp [hexBytes?, hexValue?_of_not_isHex ha], .inr ⟨a, by simp, ha⟩⟩
      · exact ⟨by simp [hexBytes?, hexValue?_of_not_isHex hc], .inr ⟨c, by simp, hc⟩⟩

/-- Hex text reads back as its bytes (R186). -/
theorem hexBytes?_hexText (bytes : List Byte) : hexBytes? (hexText bytes) = some bytes := by
  induction bytes with
  | nil => rfl
  | cons x bytes ih => simp only [hexText_cons, hexBytes?, hexValue?_hexDigit, ih, nibbles_append]

end Sys2Proof.Machine

/-! Float text (R181): the pattern's fields, the exact magnitude as a quotient, and the padded decimals. -/

namespace Sys2Proof.Machine

open Sys2Proof.Spec

theorem exponentBits_toNat (w : Word) : (w.extractLsb' 23 8).toNat = exponentField w := by
  rw [BitVec.extractLsb'_toNat, Nat.shiftRight_eq_div_pow, exponentField]

theorem fractionBits_toNat (w : Word) : (w.extractLsb' 0 23).toNat = fractionField w := by
  rw [BitVec.extractLsb'_toNat, Nat.shiftRight_zero, fractionField]

theorem signBit_iff (w : Word) : w.getLsbD 31 = true ↔ w.toNat / 2 ^ 31 = 1 := by
  have := w.isLt
  rw [← BitVec.testBit_toNat, Nat.testBit_eq_decide_div_mod_eq, decide_eq_true_iff]
  omega

/-- The minus sign of a pattern whose sign bit is set. -/
def signText (w : Word) : List Byte := if w.toNat / 2 ^ 31 = 1 then [0x2D] else []

/-- The text before the minimum width, by the fields of the pattern (R181). -/
theorem floatBody_eq (w : Word) (p : Nat) :
    floatBody w p =
      if exponentField w = 255 ∧ fractionField w ≠ 0 then [0x6E, 0x61, 0x6E]
      else if exponentField w = 255 then signText w ++ [0x69, 0x6E, 0x66]
      else signText w ++ decNat (floatRounded w p / 10 ^ p) ++
        (if 0 < p then 0x2E :: paddedDigits p (floatRounded w p % 10 ^ p) else []) := by
  simp only [floatBody, exponentBits_toNat, fractionBits_toNat, signBit_iff, signText]
  split_ifs <;> rfl

theorem magnitude_eq (w : Word) : magnitude w = floatSignificand w * 2 ^ floatScale w / 2 ^ 150 := by
  simp only [magnitude, floatSignificand, floatScale, exponentBits_toNat, fractionBits_toNat]
  split_ifs with h
  · rw [h]
    norm_num
    ring
  · rw [max_eq_left (by omega)]
    push_cast
    ring

/-- The integer quotient of the model is the exact value rounded half away from zero. -/
theorem floatRounded_eq_floor (w : Word) (p : Nat) : (floatRounded w p : Int) = ⌊magnitude w * 10 ^ p + 1 / 2⌋ := by
  have hquotient : magnitude w * 10 ^ p + 1 / 2 =
      ((2 * floatSignificand w * 2 ^ floatScale w * 10 ^ p + 2 ^ 150 : Nat) : ℚ) / (2 ^ 151 : Nat) := by
    rw [magnitude_eq]
    push_cast
    ring
  rw [hquotient, Rat.floor_natCast_div_natCast, floatRounded, Int.natCast_ediv]

theorem length_paddedDigits {p n : Nat} (hp : 0 < p) (hn : n < 10 ^ p) : (paddedDigits p n).length = p := by
  have := length_decNat_le hp hn
  simp only [paddedDigits, List.length_append, List.length_replicate]
  omega

theorem isDigit_of_mem_paddedDigits (p n : Nat) : ∀ c ∈ paddedDigits p n, IsDigit c := by
  intro c hc
  obtain hzero | hdigit := List.mem_append.1 hc
  · rw [List.eq_of_mem_replicate hzero]
    decide
  · exact isDigit_of_mem_decNat n c hdigit

/-- Leading zeros do not change the number. -/
theorem decimalValue_replicate_zero_append (k : Nat) (text : List Byte) :
    decimalValue (List.replicate k 0x30 ++ text) = decimalValue text := by
  induction k with
  | zero => rfl
  | succ k ih => exact ih

theorem decimalValue_paddedDigits (p n : Nat) : decimalValue (paddedDigits p n) = n := by
  rw [paddedDigits, decimalValue_replicate_zero_append, decimalValue_decNat]

/-- The text of a finite value: sign, integer part, and exactly `p` decimals after the point where `p` is not 0. -/
theorem exists_decimals_floatBody {w : Word} (hfinite : exponentField w ≠ 255) (p : Nat) :
    ∃ frac : List Byte, frac.length = p ∧ (∀ c ∈ frac, IsDigit c) ∧
      decimalValue frac = floatRounded w p % 10 ^ p ∧
      floatBody w p = signText w ++ decNat (floatRounded w p / 10 ^ p) ++ (if 0 < p then 0x2E :: frac else []) := by
  have hbody := floatBody_eq w p
  rw [if_neg (by tauto), if_neg hfinite] at hbody
  by_cases hp : 0 < p
  · exact ⟨_, length_paddedDigits hp (Nat.mod_lt _ (by positivity)), isDigit_of_mem_paddedDigits _ _,
      decimalValue_paddedDigits _ _, hbody⟩
  · obtain rfl : p = 0 := by omega
    rw [if_neg hp] at hbody
    exact ⟨[], rfl, by simp, by rw [pow_zero, Nat.mod_one]; rfl, by rw [hbody, if_neg hp]⟩

/-- The text of a finite value with decimals has one point: before it stand spaces, the sign and digits. -/
theorem exists_point_fmtFloat {w : Word} {p : Nat} (hfinite : exponentField w ≠ 255) (hp : 0 < p) :
    ∃ front frac : List Byte, frac.length = p ∧ (∀ c ∈ frac, IsDigit c) ∧ 0x2E ∉ front ∧
      fmtFloat w p = front ++ 0x2E :: frac := by
  obtain ⟨frac, hlength, hdigits, -, hbody⟩ := exists_decimals_floatBody hfinite p
  have hspaces (k : Nat) : 0x2E ∉ List.replicate k (0x20 : Byte) :=
    fun h => absurd (List.eq_of_mem_replicate h) (by decide)
  have hsign : 0x2E ∉ signText w := by
    rw [signText]
    split_ifs <;> simp
  have hinteger (n : Nat) : 0x2E ∉ decNat n := fun h => absurd (isDigit_of_mem_decNat n _ h) (by decide)
  refine ⟨List.replicate (2 - (floatBody w p).length) 0x20 ++ (signText w ++ decNat (floatRounded w p / 10 ^ p)), frac,
    hlength, hdigits, ?_, ?_⟩
  · simp only [List.mem_append, not_or]
    exact ⟨hspaces _, hsign, hinteger _⟩
  · rw [if_pos hp] at hbody
    show List.replicate (2 - (floatBody w p).length) 0x20 ++ floatBody w p = _
    rw [List.append_assoc, ← hbody]

end Sys2Proof.Machine

/-! The text port: what a read puts on it, and what a host that copies it to `SIN` finds there (R22, R84, R182 to R184). -/

namespace Sys2Proof.Machine

open Sys2Proof.Spec

section TextReads

variable {b : Buf} {s t : State} {text : List Byte} {st : Status}

theorem holdsText_setSout (s : State) (text : List Byte) (st : Status) :
    HoldsText s ((s.setSout text).finish st) text st.code := by
  refine ⟨?_, fun j hj => ?_⟩
  · rw [State.finish_sout, State.setSout_sout, State.finish_eq, State.setSout_eq]
  · rw [State.finish_sout, State.setSout_sout, getElem_port50]

theorem deliversText_of_putText (h : s.putText text st = .next t) : DeliversText s t text st.code := by
  rw [State.putText_eq] at h
  cases h
  rw [DeliversText]
  split_ifs
  · exact holdsText_setSout s [] .outOverflow
  · exact holdsText_setSout s text st

theorem exec_getString_of_text? (h : (s.fb b).text? = some (text, st)) : exec (.getString b) s = s.putText text st := by
  show execGetString b s = _
  rw [execGetString, h]

theorem exec_getString_of_no_text (h : (s.fb b).text? = none) :
    exec (.getString b) s = s.putText [] .typeMismatch := by
  show execGetString b s = _
  rw [execGetString, h]

theorem exists_exec_getString (b : Buf) (s : State) : ∃ t, exec (.getString b) s = .next t := by
  cases h : (s.fb b).text? with
  | none => exact ⟨_, (exec_getString_of_no_text h).trans (State.putText_eq _ _ _)⟩
  | some answer => exact ⟨_, (exec_getString_of_text? h).trans (State.putText_eq _ _ _)⟩

theorem deliversText_of_getString (hexec : exec (.getString b) s = .next t) (h : (s.fb b).text? = some (text, st)) :
    DeliversText s t text st.code :=
  deliversText_of_putText ((exec_getString_of_text? h).symm.trans hexec)

/-- A numeric payload: its text, or an empty one with `TYPE_MISMATCH` where it is too short (R182). -/
theorem deliversText_of_getString_numeric {size : Nat} (hexec : exec (.getString b) s = .next t)
    (h : (s.fb b).text? = if (s.fb b).len < size then none else some (text, .ok)) :
    if (s.fb b)[3].toNat / 8 < size then HoldsText s t [] 1 else DeliversText s t text 0 := by
  rw [Frame.len_eq] at h
  split_ifs at h ⊢
  · exact deliversText_of_putText ((exec_getString_of_no_text h).symm.trans hexec)
  · exact deliversText_of_getString hexec h

end TextReads

/-- The bytes of `SOUT` up to `SOUT_LEN` are the text the port holds. -/
theorem take_sout_of_holdsText {s t : State} {text : List Byte} {st : Byte} (h : HoldsText s t text st)
    (hlen : text.length ≤ 50) : t.sout.toList.take t.soutLen.toNat = text := by
  obtain ⟨hstate, hbytes⟩ := h
  have hcount : t.soutLen.toNat = text.length := by
    rw [hstate, BitVec.toNat_ofNat, Nat.mod_eq_of_lt (by omega)]
  rw [hcount]
  refine List.ext_getElem (by simpa using hlen) fun j _ hj => ?_
  rw [List.getElem_take, Vector.getElem_toList, hbytes, List.getD_eq_getElem _ _ hj]

/-- The bytes of a port up to as many as the host wrote are those it wrote. -/
theorem take_overwrite {n : Nat} (v : Vector Byte n) {bytes : List Byte} (h : bytes.length ≤ n) :
    (overwrite v bytes).toList.take bytes.length = bytes := by
  refine List.ext_getElem (by simpa using h) fun j hj hj' => ?_
  rw [List.getElem_take, Vector.getElem_toList, getElem_overwrite, if_pos hj', List.getD_eq_getElem _ _ hj']

end Sys2Proof.Machine

/-! What a load of hex text does, by its operands, and what the payload it writes reads back as (R140, R185). -/

namespace Sys2Proof.Machine

open Sys2Proof.Spec

theorem reservedTagBits_eq_zero_iff (x : Byte) : x.extractLsb' 3 5 = 0 ↔ x.toNat / 8 = 0 := by
  have := x.isLt
  rw [← BitVec.toNat_inj, BitVec.extractLsb'_toNat, Nat.shiftRight_eq_div_pow]
  simp only [BitVec.ofNat_eq_ofNat, BitVec.toNat_ofNat]
  omega

theorem tagOperand_toNat (x : Byte) : (x.extractLsb' 0 3).toNat = x.toNat % 8 := by simp

/-- What `LOAD_HEX` does, its operands in numbers (R185). -/
theorem exec_loadHex_eq (b : Buf) (s : State) :
    exec (.loadHex b) s =
      if 50 < s.inp.sinLen.toNat ∨ s.inp.arg1.toNat / 8 ≠ 0 then s.fail .badOperand
      else (hexBytes? (s.inp.sin.toList.take s.inp.sinLen.toNat)).elim (s.fail .hexInvalid)
        fun bytes => s.putPayload b (s.inp.arg1.extractLsb' 0 3) bytes .ok := by
  simp only [Ne, ← reservedTagBits_eq_zero_iff]
  show execLoadHex b s = _
  rw [execLoadHex, Inputs.sinBytes]
  cases hexBytes? (s.inp.sin.toList.take s.inp.sinLen.toNat) <;> rfl

theorem byte_of_writesPayload {f g : Frame} {tag : Nat} {bytes : List Byte} (h : WritesPayload f g tag bytes)
    (hlen : bytes.length ≤ 25) {k : Nat} (hk : k < bytes.length) : g.byte (7 + k) = bytes.getD k 0 := by
  rw [Frame.byte, dif_pos (by omega), h _ (by omega), if_neg (by omega), if_neg (by omega), if_neg (by omega),
    if_pos (by omega), Nat.add_sub_cancel_left]

/-- The first four payload bytes of a 32-bit value hold it. -/
theorem leValue_of_writesPayload {f g : Frame} {tag : Nat} {w : Word} {rest : List Byte}
    (h : WritesPayload f g tag (leBytes 4 w.toNat ++ rest)) (hlen : (leBytes 4 w.toNat ++ rest).length ≤ 25) :
    leValue g 4 = w.toNat := by
  have hbyte : ∀ k, k < 4 → (g.byte (7 + k)).toNat = w.toNat / 256 ^ k % 256 := by
    intro k hk
    rw [byte_of_writesPayload h hlen (by simp; omega), List.getD_append _ _ _ _ (by simpa using hk)]
    simp [leBytes, hk]
  have h0 : (g.byte 7).toNat = w.toNat / 1 % 256 := hbyte 0 (by omega)
  have h1 : (g.byte 8).toNat = w.toNat / 256 % 256 := hbyte 1 (by omega)
  have h2 : (g.byte 9).toNat = w.toNat / 65536 % 256 := hbyte 2 (by omega)
  have h3 : (g.byte 10).toNat = w.toNat / 16777216 % 256 := hbyte 3 (by omega)
  have := w.isLt
  show (g.byte 7).toNat + 256 * ((g.byte 8).toNat + 256 * ((g.byte 9).toNat + 256 * ((g.byte 10).toNat + 256 * 0))) = _
  omega

/-- The host's lines of R186: a text to `SIN`, a tag to `ARG1`. -/
theorem exists_hostActions_wrSin_wrArg1 (text : List Byte) (x : Byte) (s : State) :
    ∃ u, hostActions (assemble [.wrSin text, .wrArg1 x]) s = .next u ∧ u.inp.sin = overwrite s.inp.sin text ∧
      u.inp.sinLen = countOf text.length ∧ u.inp.arg1 = x :=
  ⟨_, (hostActions_append (hostActions_wrSinActions text s)).trans (hostActions_singleton _ _), rfl, rfl, rfl⟩

/-- A load of the hex text of at most 25 bytes stores them (R186). -/
theorem exec_loadHex_of_hexText {u : State} {p : Vector Byte 50} {bytes : List Byte} {tag : Nat} (b : Buf)
    (hlen : bytes.length ≤ 25) (htag : tag < 8) (hsin : u.inp.sin = overwrite p (hexText bytes))
    (hcount : u.inp.sinLen = countOf (hexText bytes).length) (harg : u.inp.arg1 = BitVec.ofNat 8 tag) :
    exec (.loadHex b) u = u.putPayload b (BitVec.ofNat 3 tag) bytes .ok := by
  have htext : (hexText bytes).length ≤ 50 := by
    rw [length_hexText]
    omega
  have hoperand : (BitVec.ofNat 8 tag).toNat = tag := by
    rw [BitVec.toNat_ofNat]
    omega
  have hfield : (BitVec.ofNat 8 tag).extractLsb' 0 3 = BitVec.ofNat 3 tag := by
    refine BitVec.eq_of_toNat_eq ?_
    rw [tagOperand_toNat, hoperand, BitVec.toNat_ofNat]
  rw [exec_loadHex_eq, hsin, hcount, harg, countOf_toNat (by omega), take_overwrite _ htext, hexBytes?_hexText, hoperand,
    hfield, if_neg (by omega)]
  rfl

end Sys2Proof.Machine

namespace Sys2Proof.Proofs.PayloadGet

open Sys2Proof.Machine Sys2Proof.Spec

/-- Settles O20: each getter is one checked read, of the number its payload bytes hold. -/
theorem scalarGettersCheckTagAndLength : Obligations.ScalarGettersCheckTagAndLength := by
  intro b s f
  have h8 : (f.pl 0).setWidth 32 = BitVec.ofNat 32 (leValue f 1) := by
    rw [← Frame.pl_zero_toNat, BitVec.ofNat_toNat]
  have h16 : f.value16.setWidth 32 = BitVec.ofNat 32 (leValue f 2) := by
    rw [← Frame.value16_toNat, BitVec.ofNat_toNat]
  have hsigned : f.value16.signExtend 32 = BitVec.ofInt 32 (signedValue 16 (leValue f 2)) := by
    rw [← Frame.value16_toNat, ← toInt_eq_signedValue _ (by omega)]
    rfl
  have h32 : f.value32 = BitVec.ofNat 32 (leValue f 4) := by
    rw [← Frame.value32_toNat, BitVec.ofNat_toNat, BitVec.setWidth_eq]
  have hprecision : (f.pl 4).setWidth 32 = BitVec.ofNat 32 (f.byte 11).toNat := (BitVec.ofNat_toNat 32 _).symm
  exact ⟨answersTyped_of_getTyped .byte rfl h8, answersTyped_of_getTyped .int16 rfl hsigned,
    answersTyped_of_getTyped .uint16 rfl h16, answersTyped_of_getTyped .long32 rfl h32,
    answersTyped_of_getTyped .ulong32 rfl h32, answersTyped_of_getTyped .float32 rfl h32,
    answersTyped_of_getTyped .float32 rfl hprecision, answersTyped_of_getTyped .custom rfl h16⟩

/-- Settles O21, by induction on the digits; the longest results are the bounds of the widths in powers of ten. -/
theorem decimalTextIsExact : Obligations.DecimalTextIsExact := by
  refine ⟨fun n => ⟨isDigit_of_mem_decNat n, decimalValue_decNat n, decNat_ne_nil n, fun hhead => ?_⟩, decInt_eq,
    fun n => ⟨fun hn => ?_, fun hn => ?_, fun hn => ?_⟩, fun v => ⟨fun hlo hhi => ?_, fun hlo hhi => ?_⟩⟩
  · rw [eq_zero_of_head?_decNat hhead]
    rfl
  · exact length_decNat_le (p := 3) (by omega) (by omega)
  · exact length_decNat_le (p := 5) (by omega) (by omega)
  · exact length_decNat_le (p := 10) (by omega) (by omega)
  · exact length_decInt_le (p := 5) (by omega) (by omega)
  · exact length_decInt_le (p := 10) (by omega) (by omega)

/-- Settles O22, by induction on the bytes. -/
theorem hexTextIsTwoDigitsPerByte : Obligations.HexTextIsTwoDigitsPerByte :=
  fun bytes => ⟨length_hexText bytes, fun _ hi => getD_hexText bytes hi⟩

/-- Settles O23: the model's integer quotient is the floor of the exact value. -/
theorem floatTextRoundsTheExactValue : Obligations.FloatTextRoundsTheExactValue := by
  intro w p
  refine ⟨floatBody w p, rfl, ?_⟩
  by_cases hnan : exponentField w = 255 ∧ fractionField w ≠ 0
  · rw [if_pos hnan, floatBody_eq, if_pos hnan]
  by_cases hinf : exponentField w = 255
  · rw [if_neg hnan, if_pos hinf, floatBody_eq, if_neg hnan, if_pos hinf, signText]
  · obtain ⟨frac, hlength, hdigits, hvalue, hbody⟩ := exists_decimals_floatBody hinf p
    rw [if_neg hnan, if_neg hinf]
    exact ⟨floatRounded w p, frac, floatRounded_eq_floor w p, hlength, hdigits, hvalue, hbody⟩

/-- Settles O25: both reads put their text on the port whole. -/
theorem hexAndRawReadsDeliverThePayload : Obligations.HexAndRawReadsDeliverThePayload := by
  intro b s f n st
  have hlen : f.clampedLen = min n 25 := f.clampedLen_eq
  have hstatus : f.clampedStatus.code = st := f.clampedStatus_code
  rw [← hlen, ← hstatus]
  exact ⟨coded_opcode _, coded_opcode _, ⟨_, rfl, holdsText_setSout s _ _⟩, ⟨_, rfl, holdsText_setSout s _ _⟩⟩

/-- Settles O24, by the tag: a byte string is always delivered, a number where its payload is long enough. -/
theorem getStringDeliversTextForEveryTag : Obligations.GetStringDeliversTextForEveryTag := by
  intro b s
  obtain ⟨t, hexec⟩ := exists_exec_getString b s
  refine ⟨coded_opcode _, t, hexec, ?_⟩
  intro f n tag clamped
  have htag : tag = (PayloadTag.ofBits f.ptype).code.toNat := by rw [PayloadTag.code_ofBits, Frame.ptype_toNat]
  have hclamped : f.clampedStatus.code = clamped := f.clampedStatus_code
  have hlen : f.clampedLen = min n 25 := f.clampedLen_eq
  simp only [← hlen, ← hclamped, ← Frame.pl_zero_toNat, ← Frame.value16_toNat, ← Frame.value32_toNat,
    ← toInt_eq_signedValue f.value16 (by omega), ← toInt_eq_signedValue f.value32 (by omega),
    BitVec.ofNat_toNat, BitVec.setWidth_eq]
  cases hptype : PayloadTag.ofBits f.ptype <;> rw [htag, hptype]
  case string | custom => exact deliversText_of_getString hexec (by rw [Frame.text?, hptype]; rfl)
  all_goals exact deliversText_of_getString_numeric hexec (by rw [Frame.text?, hptype] <;> rfl)

/-- Settles O26, by what the decoder of hex text answers. -/
theorem loadHexStoresTheDecodedBytes : Obligations.LoadHexStoresTheDecodedBytes := by
  intro b s n
  refine ⟨coded_opcode _, ?_⟩
  rw [exec_loadHex_eq]
  by_cases hbad : 50 < n ∨ s.inp.arg1.toNat / 8 ≠ 0
  · rw [if_pos hbad, if_pos hbad]
    rfl
  rw [if_neg hbad, if_neg hbad]
  have hlength : (s.inp.sin.toList.take n).length = n := by
    rw [List.length_take, Vector.length_toList]
    omega
  obtain ⟨hnone, hinvalid⟩ | ⟨bytes, hsome, hall, hdenotes⟩ := hexBytes?_cases (s.inp.sin.toList.take n)
  · rw [hlength] at hinvalid
    rw [if_pos hinvalid, hnone]
    rfl
  · have hn : n = 2 * bytes.length := hlength.symm.trans hdenotes.length
    have hvalid : ¬ (n % 2 = 1 ∨ ∃ c ∈ s.inp.sin.toList.take n, ¬ IsHex c) := by
      rintro (hodd | ⟨c, hc, hnot⟩)
      · omega
      · exact hnot (hall c hc)
    rw [if_neg hvalid]
    refine ⟨bytes, by omega, fun i hi => ?_, ?_⟩
    · have hnibbles := hdenotes.nibbles i (by omega)
      simp only [List.getD_eq_getElem?_getD] at hnibbles ⊢
      rwa [List.getElem?_take_of_lt (by omega), List.getElem?_take_of_lt (by omega)] at hnibbles
    · rw [← tagOperand_toNat]
      refine setsPayload_of_putPayload (st := .ok) ?_
      rw [exec_loadHex_eq, if_neg hbad, hsome]
      rfl

/-- Settles O27: hex text reads back as its bytes, and 25 bytes make a text the ports hold. -/
theorem hexRoundTripsBetweenBuffers : Obligations.HexRoundTripsBetweenBuffers := by
  intro b c s hfits
  obtain ⟨-, -, ⟨t, hget, hholds⟩, -⟩ := hexAndRawReadsDeliverThePayload b s
  rw [min_eq_left hfits] at hholds
  generalize hbytes : payloadBytes (s.fb b) ((s.fb b)[3].toNat / 8) = bytes at hholds
  have hlength : bytes.length = (s.fb b)[3].toNat / 8 := by
    rw [← hbytes]
    exact Frame.length_payload _ _
  have htag : (s.fb b)[4].toNat / 32 < 8 := by
    have := (s.fb b)[4].isLt
    omega
  have hcopy : t.sout.toList.take t.soutLen.toNat = hexText bytes := by
    refine take_sout_of_holdsText hholds ?_
    rw [length_hexText]
    omega
  obtain ⟨u, hrun, hsin, hcount, harg⟩ :=
    exists_hostActions_wrSin_wrArg1 (hexText bytes) (BitVec.ofNat 8 ((s.fb b)[4].toNat / 32)) t
  have hload := exec_loadHex_of_hexText c (hlength.trans_le hfits) htag hsin hcount harg
  refine ⟨t, u, _, hget, by rw [hcopy]; exact hrun, hload.trans (State.putPayload_eq u c _ _ _), rfl, ?_⟩
  rw [State.fb_withStatus, State.fb_setFb]
  have hwrites := writesPayload_setPayload (u.fb c) (BitVec.ofNat 3 ((s.fb b)[4].toNat / 32)) bytes
  rw [BitVec.toNat_ofNat, Nat.mod_eq_of_lt htag] at hwrites
  have hpayload := holdsPayload_of_writesPayload hwrites htag (hlength.trans_le hfits)
  refine ⟨hpayload.length.trans hlength, hpayload.tag, fun k hk => ?_⟩
  rw [byte_of_writesPayload hwrites (hlength.trans_le hfits) (hlength.symm ▸ hk), ← hbytes]
  simp [payloadBytes, hk]

/-- Settles O28, from what the setter stores and what the getters and the text read answer (O17, O20, O24). -/
theorem floatRoundTripsWithItsPrecision : Obligations.FloatRoundTripsWithItsPrecision := by
  intro b s
  obtain ⟨-, -, -, -, -, ⟨-, g, hset, hwrites⟩, -⟩ := PayloadSet.scalarPayloadSettersStoreLittleEndian b s
  obtain ⟨t, ht⟩ : ∃ t : State, t = { s.setFb b g with status := 0 } := ⟨_, rfl⟩
  have hframe : t.fb b = g := by rw [ht, State.fb_withStatus, State.fb_setFb]
  have hstatus : ∀ v : Word, { t with res := v, status := 0 } = { t with res := v } := by
    intro v
    rw [ht]
  have hpayload := holdsPayload_of_writesPayload hwrites (by omega) (by simp)
  have hlength : g[3].toNat / 8 = 5 := hpayload.length
  have hvalue : leValue g 4 = s.inp.arg0.toNat := leValue_of_writesPayload hwrites (by simp)
  have hprecision : g.byte 11 = s.inp.arg1 := byte_of_writesPayload hwrites (by simp) (k := 4) (by simp)
  have hfits : TagAndLength g 7 5 := ⟨hpayload.tag, hlength.ge⟩
  obtain ⟨-, -, -, -, -, ⟨-, hgetFloat⟩, ⟨-, hgetPrecision⟩, -⟩ := scalarGettersCheckTagAndLength b t
  obtain ⟨-, u, hgetString, htext⟩ := getStringDeliversTextForEveryTag b t
  rw [hframe, if_pos hfits, hstatus, hvalue, BitVec.ofNat_toNat, BitVec.setWidth_eq] at hgetFloat
  rw [hframe, if_pos hfits, hstatus, hprecision] at hgetPrecision
  dsimp only at htext
  rw [hframe, hpayload.tag, hlength, hvalue, hprecision, BitVec.ofNat_toNat, BitVec.setWidth_eq] at htext
  have hdelivers : DeliversText t u (fmtFloat s.inp.arg0 s.inp.arg1.toNat) 0 := htext
  exact ⟨t, u, ht ▸ hset, hgetFloat, hgetPrecision, hgetString,
    fun hfinite hp => ⟨exists_point_fmtFloat hfinite hp, hdelivers⟩⟩

end Sys2Proof.Proofs.PayloadGet

/-! The frame transfers: what each refusal of the decoder and of the encoder answers, the gate's test in numbers, and the
flag byte of an acknowledgment (R211, R212, R214, R245). -/

namespace Sys2Proof.Machine

open Sys2Proof.Spec

/-- What is no whole frame is refused (R211). -/
theorem execWireDecode_of_not_whole {s : State}
    (h : s.inp.wireInCount.toNat < 7 ∨ 32 < s.inp.wireInCount.toNat ∨ 25 < s.inp.wireLen ∨
      s.inp.wireInCount.toNat < 7 + s.inp.wireLen) :
    exec .wireDecode s = .next { s with status := 3 } := by
  show execWireDecode s = s.fail .malformed
  rw [execWireDecode]
  by_cases hcount : s.inp.wireInCount.toNat < headerSize ∨ maxWire < s.inp.wireInCount.toNat
  · rw [if_pos hcount]
  · rw [if_neg hcount, if_pos (by simp only [headerSize, maxWire, maxPayload] at hcount ⊢; omega)]

/-- The received bytes come from the port's 32, where the announced payload fits the buffer. -/
theorem Frame.getElem_receive_of_le {n : Nat} (hn : n ≤ 25) (f : Frame) (wire : Vector Byte 32) (j : Nat) (h : j < 33) :
    (f.receive wire n)[j] = if j < 7 + n then wire.toList.getD j 0 else if j = 7 + n then 0 else f[j] := by
  rw [Frame.getElem_receive]
  by_cases hj : j < 7 + n
  · have h32 : j < 32 := by omega
    simp [hj, h32]
  · rw [if_neg hj, if_neg hj]

/-- The identity request in numbers (R245). -/
theorem Frame.isIdRequest_iff (f : Frame) (c : Config) : f.isIdRequest c = true ↔ IsIdRequest f c := by
  have hcommand : f.command.toNat = f[4].toNat % 8 := by
    rw [Frame.command, BitVec.extractLsb'_toNat, Nat.shiftRight_zero]
  rw [Frame.isIdRequest, Bool.and_eq_true, beq_iff_eq, beq_iff_eq, ← BitVec.toNat_inj, hcommand]
  rfl

/-- The gate's test in numbers (R212, R236). -/
theorem State.needsId_iff (s : State) : s.needsId = true ↔ s.nodeId = 255 ∧ ¬ IsIdRequest s.tx s.cfg := by
  rw [State.needsId, Bool.and_eq_true, beq_iff_eq, Bool.not_eq_true', ← Bool.not_eq_true, Frame.isIdRequest_iff]
  rfl

/-- After a permitted encode an unassigned node is requesting (R212). -/
theorem State.auto_or_reqPending_eq (s : State) :
    (s.nodeId == autoAddress || s.reqPending) = if s.nodeId = 255 then true else s.reqPending := by
  by_cases h : s.nodeId = 255
  · rw [if_pos h, h]
    rfl
  · rw [if_neg h, beq_false_of_ne (show s.nodeId ≠ autoAddress from h), Bool.false_or]

theorem execWireEncode_of_halted {s : State} (h : s.halted = true) :
    exec .wireEncode s = .next { s with wireOutCount := 0, status := 8 } := by
  show execWireEncode s = _
  rw [execWireEncode, if_pos h]
  rfl

theorem execWireEncode_of_overlong {s : State} (hlive : ¬ s.halted = true) (h : 25 < s.tx.len) :
    exec .wireEncode s = .next { s with wireOutCount := 0, status := 3 } := by
  show execWireEncode s = _
  rw [execWireEncode, if_neg hlive, if_pos (show maxPayload < _ from h)]
  rfl

theorem execWireEncode_of_needsId {s : State} (hlive : ¬ s.halted = true) (hlen : ¬ 25 < s.tx.len)
    (h : s.needsId = true) : exec .wireEncode s = .next { s with wireOutCount := 0, status := 10 } := by
  show execWireEncode s = _
  rw [execWireEncode, if_neg hlive, if_neg (show ¬ maxPayload < _ from hlen), if_pos h]
  rfl

/-- Bit 3 cleared and bit 4 set, as a number (R214). -/
theorem setF_reqAck_ack (x : Byte) :
    setF (setF x 3 3 0) 4 4 1 = BitVec.ofNat 8 (x.toNat / 32 * 32 + 16 + x.toNat % 8) := by
  have hone : (1 : Byte).toNat = 1 := rfl
  have hzero : (0 : Byte).toNat = 0 := rfl
  refine BitVec.eq_of_toNat_eq ?_
  rw [setF_toNat _ _ (by omega) (by omega), setF_toNat _ _ (by omega) (by omega), BitVec.toNat_ofNat, hone, hzero]
  omega

end Sys2Proof.Machine

namespace Sys2Proof.Proofs.FrameTransfer

open Sys2Proof.Machine

/-- Settles O30: the decoder's two tests together are the four ways of not being a whole frame. -/
theorem wireDecodeAcceptsExactlyWholeFrames : Obligations.WireDecodeAcceptsExactlyWholeFrames := by
  refine ⟨coded_opcode _, fun s => ?_⟩
  intro c n
  have hwire : s.inp.wireLen = n := s.inp.wireLen_eq
  split_ifs with hbad
  · exact execWireDecode_of_not_whole (hwire ▸ hbad)
  · obtain ⟨hfits, hlen, hwhole⟩ : c ≤ 32 ∧ n ≤ 25 ∧ 7 + n ≤ c := by omega
    refine ⟨s.rx.receive s.inp.wireIn n, ?_, Frame.getElem_receive_of_le hlen s.rx s.inp.wireIn⟩
    rw [← hwire] at hlen hwhole ⊢
    exact execWireDecode_of_whole hlen hwhole hfits

/-- Settles O31, by the encoder's refusals in their order. -/
theorem wireEncodeEmitsOnlyPermittedFrames : Obligations.WireEncodeEmitsOnlyPermittedFrames := by
  refine ⟨coded_opcode _, fun s => ?_⟩
  intro n
  have hlen : s.tx.len = n := s.tx.len_eq
  rw [← hlen, ← State.auto_or_reqPending_eq]
  split_ifs with hhalt hlong hid
  · exact execWireEncode_of_halted hhalt
  · exact execWireEncode_of_overlong hhalt hlong
  · exact execWireEncode_of_needsId hhalt hlong (s.needsId_iff.2 hid)
  · refine ⟨s.tx.wireImage s.tx.len, ?_, Frame.getElem_wireImage s.tx s.tx.len⟩
    exact execWireEncode_of_permitted (Bool.eq_false_of_not_eq_true hhalt) (not_lt.1 hlong)
      (Bool.eq_false_of_not_eq_true (mt s.needsId_iff.1 hid))

/-- Settles O32: the acknowledgment's three written bytes, the flag byte as a number. -/
theorem frameCopyAndAcknowledgment : Obligations.FrameCopyAndAcknowledgment := by
  refine ⟨coded_opcode _, coded_opcode _, fun s => ⟨rfl, s.rx.ackOf s.nodeId, rfl, fun j hj => ?_⟩⟩
  rw [Frame.getElem_ackOf, setF_reqAck_ack]

/-- Settles O29: `finish(OK)` is the whole of `NOP`. -/
theorem nopOnlyClearsStatus : Obligations.NopOnlyClearsStatus :=
  ⟨coded_opcode _, fun s => congrArg Host.Outcome.next (s.finish_eq .ok)⟩

end Sys2Proof.Proofs.FrameTransfer

/-! The identity registers: what an adoption and an update do, said as `Adopts` and `Updates` say it, and what the RX frame
gives them (R246 to R249). -/

namespace Sys2Proof.Machine

open Sys2Proof.Spec

theorem lowByte_eq_ofNat (a : Word) : lowByte a = BitVec.ofNat 8 (a.toNat % 256) := by
  rw [← lowByte_toNat, BitVec.ofNat_toNat, BitVec.setWidth_eq]

section IdentityRegisters

variable {s : State} {a v : Byte}

/-- An address taken and persisted on change (R234, R248). -/
theorem State.exists_persist_address (hwf : s.cfg.wf = true) (ha : a ≠ 255) :
    ∃ t, State.persist { s with nodeId := a, reqPending := false } s.cfg.eeNodeId a = .next t ∧
      t = { s with
          nodeId := a, reqPending := false, storage := t.storage,
          storageWrites := s.storageWrites ++ (if s.storage.read s.cfg.eeNodeId = a then [] else [(s.cfg.eeNodeId, a)]),
          status := 0 } ∧
      ∀ x, t.storage.read x = if x = s.cfg.eeNodeId then a else s.storage.read x := by
  obtain ⟨m, hpersist, hread⟩ := State.persist_spec { s with nodeId := a, reqPending := false }
    (Config.eeNodeId_lt hwf) (show a ≠ erasedByte from ha)
  exact ⟨_, hpersist, rfl, hread⟩

theorem State.exists_adopt (hwf : s.cfg.wf = true) (a : Byte) : ∃ t, s.adopt a = .next t ∧ Adopts s a t := by
  unfold State.adopt Adopts autoAddress
  by_cases hhalt : s.halted = true
  · simp only [if_pos hhalt]
    exact ⟨_, s.fail_eq .halted, rfl⟩
  by_cases hassigned : s.nodeId ≠ 255
  · simp only [if_neg hhalt, if_pos hassigned]
    exact ⟨_, s.fail_eq .illegalState, rfl⟩
  by_cases ha : a = 255
  · simp only [if_neg hhalt, if_neg hassigned, if_pos ha]
    exact ⟨_, rfl, rfl⟩
  · simp only [if_neg hhalt, if_neg hassigned, if_neg ha]
    exact State.exists_persist_address hwf ha

theorem State.currentUnit_eq_comparedUnit (hwf : s.cfg.wf = true) : s.currentUnit = some (comparedUnit s) := by
  rw [State.currentUnit_of_lt (Config.eeUnit_lt hwf), comparedUnit]
  cases s.cfg.cmpSource <;> rfl

/-- An update to the value compared with writes the register alone (R249). -/
theorem State.updateUnit_of_eq (hcur : s.currentUnit = some v) :
    s.updateUnit v = .next { s with unitPref := v, status := 0 } := by
  rw [State.updateUnit, hcur]
  exact if_pos rfl

/-- An update to another value writes the storage byte too (R249). -/
theorem State.updateUnit_of_ne {cur : Byte} (hcur : s.currentUnit = some cur) (hne : cur ≠ v)
    (hlt : s.cfg.eeUnit < s.cfg.storageSize) :
    s.updateUnit v = .next { s with
      unitPref := v, storage := s.storage.write s.cfg.eeUnit v,
      storageWrites := s.storageWrites ++ [(s.cfg.eeUnit, v)], status := 0 } := by
  rw [State.updateUnit, hcur, State.memWrite_of_lt hlt]
  exact if_neg hne

theorem State.exists_updateUnit (hwf : s.cfg.wf = true) (hv : v ≠ 255) :
    ∃ t, s.updateUnit v = .next t ∧ Updates s v t := by
  have hcur := State.currentUnit_eq_comparedUnit hwf
  unfold Updates
  by_cases hsame : comparedUnit s = v
  · refine ⟨_, State.updateUnit_of_eq (hsame ▸ hcur), ?_, fun x => ?_⟩
    · rw [if_pos hsame, List.append_nil]
    · rw [if_neg fun h => h.2 hsame]
  · refine ⟨_, State.updateUnit_of_ne hcur hsame (Config.eeUnit_lt hwf), ?_, fun x => ?_⟩
    · rw [if_neg hsame]
    · simp only [Memory.read_write_of_ne _ _ (show v ≠ erasedByte from hv), ne_eq, hsame, not_false_eq_true, and_true]

end IdentityRegisters

section ReceivedValues

variable (f : Frame)

/-- A payload tag and a least length in numbers (R75, R246). -/
theorem Frame.tagAndLength_iff (tag : PayloadTag) (size : Nat) :
    TagAndLength f tag.code.toNat size ↔ f.ptype = tag.code ∧ size ≤ f.len := by
  rw [TagAndLength, ← Frame.ptype_toNat, ← Frame.len_eq, BitVec.toNat_inj]

theorem Frame.payload_len_eq : f.payload f.len = payloadBytes f (f[3].toNat / 8) := by
  rw [f.len_eq]
  rfl

theorem all_isDigit_iff (bytes : List Byte) :
    bytes.all (fun c => 0x30 ≤ c.toNat && c.toNat ≤ 0x39) = true ↔ ∀ c ∈ bytes, IsDigit c := by
  simp only [List.all_eq_true, Bool.and_eq_true, decide_eq_true_eq]

/-- `DEC_ADDR` in numbers (R246). -/
theorem Frame.decAddr?_eq :
    f.decAddr? =
      if TagAndLength f 1 1 then some f[7]
      else if TagAndLength f 0 1 ∧ f[3].toNat / 8 ≤ 3 ∧ (∀ c ∈ payloadBytes f (f[3].toNat / 8), IsDigit c) ∧
          decimalValue (payloadBytes f (f[3].toNat / 8)) ≤ 255 then
        some (BitVec.ofNat 8 (decimalValue (payloadBytes f (f[3].toNat / 8))))
      else none := by
  have hbyte := f.tagAndLength_iff .byte 1
  have hstring := f.tagAndLength_iff .string 1
  unfold Frame.decAddr?
  by_cases hb : TagAndLength f 1 1
  · rw [if_pos hb, if_pos (hbyte.1 hb), f.pl_eq (by omega)]
  rw [if_neg hb, if_neg (mt hbyte.2 hb)]
  by_cases hs : TagAndLength f 0 1 ∧ f[3].toNat / 8 ≤ 3
  · obtain ⟨htag, hlen⟩ := hstring.1 hs.1
    rw [if_pos ⟨htag, hlen, f.len_eq.trans_le hs.2⟩, f.payload_len_eq]
    simp only [all_isDigit_iff, and_iff_right hs.1, and_iff_right hs.2]
    rfl
  · rw [if_neg fun h => hs ⟨hstring.2 ⟨h.1, h.2.1⟩, f.len_eq ▸ h.2.2⟩, if_neg fun h => hs ⟨h.1, h.2.1⟩]

/-- `DEC_UNIT` in numbers (R247). -/
theorem Frame.decUnit?_eq :
    f.decUnit? =
      if TagAndLength f 0 1 ∧ f[7] = 0x4D then some 1
      else if TagAndLength f 0 1 ∧ f[7] = 0x49 then some 0
      else none := by
  have hstring := f.tagAndLength_iff .string 1
  unfold Frame.decUnit?
  rw [f.pl_eq (by omega)]
  by_cases hs : TagAndLength f 0 1
  · simp only [if_pos (hstring.1 hs), and_iff_right hs]
    rfl
  · simp only [if_neg (mt hstring.2 hs), hs, false_and, if_false]

end ReceivedValues

section Loads

variable {s : State}

/-- `ID_LOAD` inside storage (R231). -/
theorem execIdLoad_of_wf (hwf : s.cfg.wf = true) :
    exec .idLoad s = .next (if s.halted = true then { s with status := 8 }
      else { s with nodeId := s.storage.read s.cfg.eeNodeId, reqPending := false, status := 0 }) := by
  show execIdLoad s = _
  rw [execIdLoad, State.memRead_of_lt (Config.eeNodeId_lt hwf)]
  split_ifs <;> rfl

/-- `CFG_LOAD` inside storage (R232). -/
theorem execCfgLoad_of_wf (hwf : s.cfg.wf = true) :
    exec .cfgLoad s = .next { s with
      unitPref := if s.storage.read s.cfg.eeUnit = 255 then 1 else s.storage.read s.cfg.eeUnit, status := 0 } := by
  show execCfgLoad s = _
  rw [execCfgLoad, State.memRead_of_lt (Config.eeUnit_lt hwf)]
  rfl

end Loads

/-! The failure counter (R237, R254). -/

section FailureCounter

variable (s : State)

theorem exec_txResult :
    exec .txResult s = .next { s with
      failCnt := if s.inp.arg0.toNat % 2 = 1 then 0 else BitVec.ofNat 8 (s.failCnt.toNat + 1), status := 0 } := by
  have hbit : s.inp.arg0.getLsbD 0 = decide (s.inp.arg0.toNat % 2 = 1) := by
    rw [← BitVec.testBit_toNat, Nat.testBit_zero]
  have hnext : s.failCnt + 1 = BitVec.ofNat 8 (s.failCnt.toNat + 1) := BitVec.eq_of_toNat_eq (by simp)
  show execTxResult s = _
  rw [execTxResult, hbit, hnext, State.finish_eq]
  simp only [decide_eq_true_eq]
  rfl

theorem hostActions_txResult (v : Word) :
    hostActions (AsmLine.opV .txResult v).expand s =
      exec .txResult { s with inp := { s.inp with arg0 := v, cmd := encode .txResult } } :=
  (hostActions_cons_of_next rfl).trans (hostActions_issueActions _ _)

theorem exists_hostActions_success :
    ∃ t, hostActions (AsmLine.opV .txResult 1).expand s = .next t ∧ t.failCnt.toNat = 0 :=
  ⟨_, (hostActions_txResult s 1).trans (exec_txResult _), rfl⟩

/-- Failures in a row add up, modulo 256. -/
theorem exists_hostActions_failures (k : Nat) :
    ∃ t, hostActions (assemble (List.replicate k (.opV .txResult 0))) s = .next t ∧
      t.failCnt.toNat = (s.failCnt.toNat + k) % 256 := by
  induction k generalizing s with
  | zero => exact ⟨s, rfl, (Nat.mod_eq_of_lt s.failCnt.isLt).symm⟩
  | succ k ih =>
    have hline := (hostActions_txResult s 0).trans (exec_txResult _)
    obtain ⟨t, ht, hcount⟩ := ih _
    refine ⟨t, (hostActions_append hline).trans ht, ?_⟩
    rw [hcount]
    show ((BitVec.ofNat 8 (s.failCnt.toNat + 1)).toNat + k) % 256 = _
    rw [BitVec.toNat_ofNat]
    omega

end FailureCounter

/-! The answers of `GET_ID_STATE` and `RX_CLASSIFY` in numbers (R34, R242). -/

theorem reads_of_answer_word {i : Instr} {s : State} {x : Word} {v : Nat} (hexec : exec i s = s.answer x)
    (hx : x.toNat = v) : Reads i (opcode i).toNat v s :=
  reads_of_answer (x := x) (by rw [hexec, BitVec.setWidth_eq]) hx

section Answers

variable (s : State)

theorem State.idState_code_toNat :
    s.idState.code.toNat =
      if s.halted = true then 3 else if s.nodeId ≠ 255 then 2 else if s.reqPending = true then 1 else 0 := by
  unfold State.idState autoAddress
  split_ifs <;> rfl

theorem flag_append_class_toNat (flag : BitVec 1) (k : BitVec 4) :
    ((flag ++ k).setWidth 32 : Word).toNat = flag.toNat * 16 + k.toNat := by
  revert flag k
  decide

theorem Frame.version_ne_iff (f : Frame) : f.version ≠ protocolVersion ↔ f[3].toNat % 4 ≠ 2 := by
  have hversion : f.version.toNat = f[3].toNat / 1 % 4 := f.field_toNat .version
  rw [Nat.div_one] at hversion
  rw [← hversion, ne_eq, ← BitVec.toNat_inj]
  rfl

theorem Frame.isInternal_iff (f : Frame) : f.command = Command.internal.code ↔ f[4].toNat % 8 = 3 := by
  have hcommand : f.command.toNat = f[4].toNat / 1 % 8 := f.field_toNat .command
  rw [Nat.div_one] at hcommand
  rw [← hcommand, ← BitVec.toNat_inj]
  rfl

variable {s}

/-- A dropped frame is reported without the flag (R242). -/
theorem State.rxReport_toNat_of_dropped (h : s.rxClass = .dropVersion ∨ s.rxClass = .notForMe) :
    s.rxReport.toNat = s.rxClass.code.toNat := by
  rw [State.rxReport, flag_append_class_toNat, if_pos h]
  exact Nat.zero_add _

/-- The report of a frame that is not dropped: its flag and its class (R242). -/
theorem State.rxReport_toNat_of_kept (h : ¬ (s.rxClass = .dropVersion ∨ s.rxClass = .notForMe)) :
    s.rxReport.toNat = s.rx[4].toNat / 8 % 2 * 16 + s.rxClass.code.toNat := by
  have hack : s.rx.reqAck.toNat = s.rx[4].toNat / 8 % 2 := s.rx.field_toNat .reqack
  rw [State.rxReport, flag_append_class_toNat, if_neg h, hack]

variable (s)

theorem State.rxReport_toNat :
    s.rxReport.toNat =
      if s.rx[3].toNat % 4 ≠ 2 then 0
      else if s.rx[2] ≠ s.nodeId then 1
      else s.rx[4].toNat / 8 % 2 * 16 +
        (if s.rx[4].toNat % 8 = 3 ∧ s.rx[1] = 0 then
          (if s.rx[5] = s.cfg.iReboot then 3
          else if s.rx[5] = s.cfg.iIdResponse then 4
          else if s.rx[5] = s.cfg.iConfig then 5
          else if s.rx[5] = s.cfg.iTime then 6
          else 7)
        else 2) := by
  simp only [← Frame.version_ne_iff, ← Frame.isInternal_iff]
  by_cases hdrop : s.rx.version ≠ protocolVersion
  · have hclass : s.rxClass = .dropVersion := if_pos hdrop
    rw [if_pos hdrop, State.rxReport_toNat_of_dropped (.inl hclass), hclass]
    rfl
  by_cases hother : s.rx[2] ≠ s.nodeId
  · have hclass : s.rxClass = .notForMe := (if_neg hdrop).trans (if_pos hother)
    rw [if_neg hdrop, if_pos hother, State.rxReport_toNat_of_dropped (.inr hclass), hclass]
    rfl
  have hclass : s.rxClass =
      if s.rx.command = Command.internal.code ∧ s.rx[1] = 0 then
        if s.rx[5] = s.cfg.iReboot then .intReboot
        else if s.rx[5] = s.cfg.iIdResponse then .intIdResponse
        else if s.rx[5] = s.cfg.iConfig then .intConfig
        else if s.rx[5] = s.cfg.iTime then .intTime
        else .intOther
      else .app := (if_neg hdrop).trans (if_neg hother)
  have hkept : ¬ (s.rxClass = .dropVersion ∨ s.rxClass = .notForMe) := by
    rw [hclass]
    split_ifs <;> decide
  rw [if_neg hdrop, if_neg hother, State.rxReport_toNat_of_kept hkept, hclass]
  split_ifs <;> rfl

end Answers

end Sys2Proof.Machine

namespace Sys2Proof.Proofs.Identity

open Sys2Proof.Machine Sys2Proof.Spec

/-- Settles O35. -/
theorem loadsReadTheirStorageByte : Obligations.LoadsReadTheirStorageByte :=
  ⟨coded_opcode _, coded_opcode _, fun _ hwf => ⟨execIdLoad_of_wf hwf, execCfgLoad_of_wf hwf⟩⟩

/-- Settles O36. -/
theorem adoptionTakesAnAddressOnce : Obligations.AdoptionTakesAnAddressOnce := by
  refine ⟨coded_opcode _, fun s hwf => ?_⟩
  rw [← lowByte_eq_ofNat]
  exact State.exists_adopt hwf _

/-- Settles O37: the checks of the state come first, then the address the payload holds is adopted. -/
theorem adoptionFromTheReceivedFrame : Obligations.AdoptionFromTheReceivedFrame := by
  refine ⟨coded_opcode _, fun s hwf => ?_⟩
  show ∃ t, execIdAdoptRx s = .next t ∧ _
  unfold execIdAdoptRx autoAddress
  rw [Frame.decAddr?_eq]
  dsimp only
  split_ifs
  · exact ⟨_, s.fail_eq .halted, rfl⟩
  · exact ⟨_, s.fail_eq .illegalState, rfl⟩
  · exact State.exists_adopt hwf _
  · exact State.exists_adopt hwf _
  · exact ⟨_, s.fail_eq .typeMismatch, rfl⟩

/-- Settles O38. -/
theorem staticAddressIsInstalled : Obligations.StaticAddressIsInstalled := by
  refine ⟨coded_opcode _, fun s hwf => ?_⟩
  show ∃ t, execIdSetStatic s = .next t ∧ _
  rw [← lowByte_eq_ofNat]
  unfold execIdSetStatic autoAddress
  dsimp only
  by_cases hhalt : s.halted = true
  · simp only [if_pos hhalt]
    exact ⟨_, s.fail_eq .halted, rfl⟩
  by_cases ha : lowByte s.inp.arg0 = 255
  · simp only [if_neg hhalt, if_pos ha]
    exact ⟨_, s.fail_eq .badOperand, rfl⟩
  by_cases hpersists : s.cfg.staticIdPersists = true
  · simp only [if_neg hhalt, if_neg ha, if_pos hpersists]
    exact State.exists_persist_address hwf ha
  · simp only [if_neg hhalt, if_neg ha, if_neg hpersists]
    exact ⟨_, rfl, rfl⟩

/-- Settles O39: the operand is one of the two preferences, and neither is the erased value. -/
theorem unitUpdateWritesOnChange : Obligations.UnitUpdateWritesOnChange := by
  refine ⟨coded_opcode _, fun s hwf => ?_⟩
  have hvalid : lowByte s.inp.arg0 ≠ unitMetric ∧ lowByte s.inp.arg0 ≠ unitImperial ↔
      s.inp.arg0.toNat % 256 ≠ 1 ∧ s.inp.arg0.toNat % 256 ≠ 0 := by
    rw [← lowByte_toNat, ne_eq, ne_eq, ← BitVec.toNat_inj, ← BitVec.toNat_inj]
    rfl
  show ∃ t, execCfgUpdate s = .next t ∧ _
  unfold execCfgUpdate
  simp only [hvalid, ← lowByte_eq_ofNat]
  split_ifs with hv
  · exact ⟨_, s.fail_eq .badOperand, rfl⟩
  · refine State.exists_updateUnit hwf fun hunset => hv ?_
    rw [← lowByte_toNat, hunset]
    decide

/-- Settles O40. -/
theorem unitUpdateFromTheReceivedFrame : Obligations.UnitUpdateFromTheReceivedFrame := by
  refine ⟨coded_opcode _, fun s hwf => ?_⟩
  show ∃ t, execCfgUpdateRx s = .next t ∧ _
  unfold execCfgUpdateRx
  rw [Frame.decUnit?_eq]
  split_ifs
  · exact State.exists_updateUnit hwf (by decide)
  · exact State.exists_updateUnit hwf (by decide)
  · exact ⟨_, s.fail_eq .typeMismatch, rfl⟩

/-- Settles O41: of the encoder's four outcomes only the permitted one offers a frame, of 7 to 32 bytes. -/
theorem transmissionGateAgreesWithTheCheck : Obligations.TransmissionGateAgreesWithTheCheck := by
  refine ⟨coded_opcode _, fun s => ?_⟩
  have hcheck := State.answer_eq s (if s.halted then 2 else if s.needsId then 1 else 0)
  simp only [← State.needsId_iff, ← Frame.len_eq]
  by_cases hhalt : s.halted = true
  · exact ⟨_, execWireEncode_of_halted hhalt, hcheck, by simp [hhalt]⟩
  by_cases hlong : 25 < s.tx.len
  · exact ⟨_, execWireEncode_of_overlong hhalt hlong, hcheck, by simp [hlong.not_ge]⟩
  by_cases hid : s.needsId = true
  · exact ⟨_, execWireEncode_of_needsId hhalt hlong hid, hcheck, by simp [hid]⟩
  have hlive := Bool.eq_false_of_not_eq_true hhalt
  have hlen := not_lt.1 hlong
  have hoffered : BitVec.ofNat 6 (7 + s.tx.len) ≠ 0 := by bv_omega
  exact ⟨_, execWireEncode_of_permitted hlive hlen (Bool.eq_false_of_not_eq_true hid), hcheck,
    iff_of_true hoffered ⟨hlive, hid, hlen⟩⟩

/-- Settles O42, by induction on the number of failures. -/
theorem failureCounterCountsModulo256 : Obligations.FailureCounterCountsModulo256 := by
  refine ⟨coded_opcode _, exec_txResult, fun k s => ?_⟩
  obtain ⟨u, hu, hcleared⟩ := exists_hostActions_success s
  obtain ⟨t, ht, hcount⟩ := exists_hostActions_failures u k
  refine ⟨t, (hostActions_append hu).trans ht, ?_⟩
  rw [hcount, hcleared, Nat.zero_add]

/-- Settles O43. -/
theorem identityQueriesAnswerTheRegisters : Obligations.IdentityQueriesAnswerTheRegisters := fun s =>
  ⟨reads_of_answer rfl rfl, reads_of_answer rfl rfl, reads_of_answer rfl rfl,
    reads_of_answer_word rfl s.idState_code_toNat⟩

/-- Settles O44. -/
theorem receivedFrameIsClassified : Obligations.ReceivedFrameIsClassified := fun s =>
  reads_of_answer_word rfl s.rxReport_toNat

/-- Settles O45: three effects write the address, and those of the adoptions need an unassigned node. -/
theorem assignedAddressChangesOnlyByLoadOrStatic : Obligations.AssignedAddressChangesOnlyByLoadOrStatic := by
  have hcases : ∀ (i : Instr) (s t : State), exec i s = .next t → t.nodeId ≠ s.nodeId →
      (i = .idSetStatic ∨ i = .idLoad) ∨ i ∈ adoptions ∧ s.nodeId = 255 := by
    intro i s t hexec hchanged
    cases exec_effect hexec with
    | addressSet a hlive hi =>
      obtain rfl | rfl | hadopt := hi
      · exact .inl (.inr rfl)
      · exact .inl (.inl rfl)
      · exact .inr hadopt
    | addressStored a hlive hi =>
      obtain rfl | hadopt := hi
      · exact .inl (.inl rfl)
      · exact .inr hadopt
    | frameWritten b f st => exact absurd (by simp) hchanged
    | textDelivered text st => exact absurd (by simp) hchanged
    | _ => exact absurd rfl hchanged
  refine ⟨fun i s t hexec hassigned hchanged => ?_, fun i s t hi hexec hchanged => ?_⟩
  · exact (hcases i s t hexec hchanged).resolve_right fun h => hassigned h.2
  · obtain hother | hadopt := hcases i s t hexec hchanged
    · rcases hi with rfl | rfl <;> simp at hother
    · exact hadopt.2

end Sys2Proof.Proofs.Identity

/-! Every operation of a well-formed configuration completes (R57, R300). Only the operations on storage could stop, and its
two records lie inside it. -/

namespace Sys2Proof.Machine

section Completion

variable {s : State}

theorem State.exists_putSin (b : Buf) (tag : PayloadTag) : ∃ t, s.putSin b tag = .next t := by
  rw [State.putSin_eq]
  split_ifs <;> exact ⟨_, rfl⟩

theorem exists_getString (b : Buf) : ∃ t, execGetString b s = .next t := by
  unfold execGetString
  split <;> exact ⟨_, State.putText_eq ..⟩

theorem exists_loadHex (b : Buf) : ∃ t, execLoadHex b s = .next t := by
  unfold execLoadHex
  split_ifs
  · exact ⟨_, rfl⟩
  · split <;> exact ⟨_, rfl⟩

theorem exists_wireDecode : ∃ t, execWireDecode s = .next t := by
  unfold execWireDecode
  dsimp only
  split_ifs <;> exact ⟨_, rfl⟩

/-- Every operation on storage answers by its own statement; the others answer on any configuration. -/
theorem exists_exec (hwf : s.cfg.wf = true) (i : Instr) : ∃ t, exec i s = .next t := by
  cases i with
  | setString b | setCustom b => exact State.exists_putSin b _
  | getByte b | getInt16 b | getUint16 b | getLong32 b | getUlong32 b | getFloat32 b | getPrecision b
  | getPresentation b => exact ⟨_, State.getTyped_eq s b _ _ _⟩
  | getString b => exact exists_getString b
  | loadHex b => exact exists_loadHex b
  | wireDecode => exact exists_wireDecode
  | wireEncode => exact (Proofs.Identity.transmissionGateAgreesWithTheCheck.2 s).imp fun _ => And.left
  | idLoad => exact ⟨_, execIdLoad_of_wf hwf⟩
  | cfgLoad => exact ⟨_, execCfgLoad_of_wf hwf⟩
  | idAdopt => exact (Proofs.Identity.adoptionTakesAnAddressOnce.2 s hwf).imp fun _ => And.left
  | idAdoptRx => exact (Proofs.Identity.adoptionFromTheReceivedFrame.2 s hwf).imp fun _ => And.left
  | idSetStatic => exact (Proofs.Identity.staticAddressIsInstalled.2 s hwf).imp fun _ => And.left
  | cfgUpdate => exact (Proofs.Identity.unitUpdateWritesOnChange.2 s hwf).imp fun _ => And.left
  | cfgUpdateRx => exact (Proofs.Identity.unitUpdateFromTheReceivedFrame.2 s hwf).imp fun _ => And.left
  | _ => exact ⟨_, rfl⟩

theorem exists_hostAction (hwf : s.cfg.wf = true) (a : HostAction) : ∃ t, hostAction a s = .next t := by
  cases a with
  | issue =>
    obtain ⟨i, -, hrun⟩ | ⟨e, -, hrun⟩ := runCommand_cases s
    · obtain ⟨t, ht⟩ := exists_exec hwf i
      exact ⟨t, hrun.trans ht⟩
    · exact ⟨_, hrun⟩
  | _ => exact ⟨_, rfl⟩

end Completion

end Sys2Proof.Machine

/-! The terminal halt (R251): what a halted block keeps along every operation, every host action that is no reset, and so
every run. -/

namespace Sys2Proof.Machine

/-- `t` is what a halted `s` may become without a reset: halted, with the same address and configuration, and the wire port
offering what it offered or nothing. -/
structure State.HaltKept (s t : State) : Prop where
  halted : t.halted = true
  cfg : t.cfg = s.cfg
  nodeId : t.nodeId = s.nodeId
  wireOut : t.wireOutCount = s.wireOutCount ∨ t.wireOutCount = 0

namespace State.HaltKept

variable {s t u : State}

theorem refl (h : s.halted = true) : s.HaltKept s := ⟨h, rfl, rfl, .inl rfl⟩

theorem trans (hst : s.HaltKept t) (htu : t.HaltKept u) : s.HaltKept u where
  halted := htu.halted
  cfg := htu.cfg.trans hst.cfg
  nodeId := htu.nodeId.trans hst.nodeId
  wireOut := by
    obtain hkept | hnone := htu.wireOut
    · rw [hkept]
      exact hst.wireOut
    · exact .inr hnone

/-- The effects that write the address or offer a frame are not those of a halted block. -/
theorem of_effect {i : Instr} (h : s.halted = true) (he : Effect i s t) : s.HaltKept t := by
  cases he with
  | frameWritten b f st => exact ⟨by simpa using h, by simp, by simp, .inl (by simp)⟩
  | textDelivered text st => exact ⟨by simpa using h, by simp, by simp, .inl (by simp)⟩
  | nothingOffered st => exact ⟨h, rfl, rfl, .inr rfl⟩
  | frameOffered _ hlive => exact absurd (h.symm.trans hlive) (by decide)
  | addressSet a hlive => exact absurd (h.symm.trans hlive) (by decide)
  | addressStored a hlive => exact absurd (h.symm.trans hlive) (by decide)
  | haltEntered => exact ⟨rfl, rfl, rfl, .inl rfl⟩
  | _ => exact ⟨h, rfl, rfl, .inl rfl⟩

theorem of_runCommand (h : s.halted = true) (hrun : runCommand s = .next t) : s.HaltKept t := by
  obtain ⟨i, -, heq⟩ | ⟨e, -, heq⟩ := runCommand_cases s
  · exact of_effect h (exec_effect (heq.symm.trans hrun))
  · cases heq.symm.trans hrun
    exact ⟨h, rfl, rfl, .inl rfl⟩

theorem of_hostAction {a : HostAction} (h : s.halted = true) (ha : a.keepsPower = true)
    (hact : hostAction a s = .next t) : s.HaltKept t := by
  obtain ⟨-, hrun⟩ | ⟨p, rfl, -⟩ | ⟨-, -, p, rfl⟩ := hostAction_cases hact
  · exact of_runCommand h hrun
  · cases ha
  · exact ⟨h, rfl, rfl, .inl rfl⟩

end State.HaltKept

/-- A halted block performs every host action that is no reset, and stays halted. -/
theorem exists_hostAction_of_halted {s : State} {a : HostAction} (hwf : s.cfg.wf = true) (h : s.halted = true)
    (ha : a.keepsPower = true) : ∃ t, hostAction a s = .next t ∧ s.HaltKept t := by
  obtain ⟨t, ht⟩ := exists_hostAction hwf a
  exact ⟨t, ht, .of_hostAction h ha ht⟩

/-- The same of actions in turn. -/
theorem exists_hostActions_of_halted {actions : List HostAction} (hpower : ∀ a ∈ actions, a.keepsPower = true)
    {s : State} (hwf : s.cfg.wf = true) (h : s.halted = true) :
    ∃ t, hostActions actions s = .next t ∧ s.HaltKept t := by
  induction actions generalizing s with
  | nil => exact ⟨s, rfl, .refl h⟩
  | cons a rest ih =>
    obtain ⟨ha, hrest⟩ := List.forall_mem_cons.1 hpower
    obtain ⟨u, hu, hkept⟩ := exists_hostAction_of_halted hwf h ha
    obtain ⟨t, ht, hkept'⟩ := ih hrest (hkept.cfg ▸ hwf) hkept.halted
    exact ⟨t, (hostActions_cons_of_next hu).trans ht, hkept.trans hkept'⟩

/-- No host action changes the host's script. -/
theorem script_of_hostAction {a : HostAction} {s t : State} (h : hostAction a s = .next t) : t.script = s.script := by
  obtain ⟨-, hrun⟩ | ⟨p, -, rfl⟩ | ⟨-, -, p, rfl⟩ := hostAction_cases h
  · obtain ⟨i, -, heq⟩ | ⟨e, -, heq⟩ := runCommand_cases s
    · exact (Proofs.State.operationsLeaveInputsAndConfiguration i s t (heq.symm.trans hrun)).2.2
    · cases heq.symm.trans hrun
      rfl
  · exact State.resetEvent_script s p
  · exact State.setInp_script s p

/-- A step of a halted block: it answers, the halt is kept, and the rest of the script holds no reset either. -/
theorem exists_step_of_halted {s : State} (hwf : s.cfg.wf = true) (h : s.halted = true)
    (hpower : ∀ a ∈ s.script, a.keepsPower = true) :
    ∃ t, step s = .next t ∧ s.HaltKept t ∧ ∀ a ∈ t.script, a.keepsPower = true := by
  cases hs : s.script with
  | nil =>
    refine ⟨s, ?_, .refl h, hpower⟩
    rw [step, if_pos hwf, hs]
  | cons a rest =>
    rw [hs] at hpower
    obtain ⟨ha, hrest⟩ := List.forall_mem_cons.1 hpower
    obtain ⟨t, ht, hkept⟩ := exists_hostAction_of_halted (s := { s with script := rest }) hwf h ha
    refine ⟨t, (step_of_cons hwf hs).trans ht, ⟨hkept.halted, hkept.cfg, hkept.nodeId, hkept.wireOut⟩, ?_⟩
    rw [script_of_hostAction ht]
    exact hrest

theorem run_succ_of_step {M : Host.Core} {k : Nat} {s u : M.State} (h : M.step s = .next u) :
    M.run (k + 1) s = M.run k u := by
  simp only [Host.Core.run, h]

theorem exists_run_of_halted (k : Nat) {s : State} (hwf : s.cfg.wf = true) (h : s.halted = true)
    (hpower : ∀ a ∈ s.script, a.keepsPower = true) :
    ∃ t, Host.Core.run Sys2Proof.core k s = .next t ∧ s.HaltKept t := by
  induction k generalizing s with
  | zero => exact ⟨s, rfl, .refl h⟩
  | succ k ih =>
    obtain ⟨u, hstep, hkept, hrest⟩ := exists_step_of_halted hwf h hpower
    obtain ⟨t, hrun, hkept'⟩ := ih (hkept.cfg ▸ hwf) hkept.halted hrest
    exact ⟨t, (run_succ_of_step (M := Sys2Proof.core) hstep).trans hrun, hkept.trans hkept'⟩

end Sys2Proof.Machine

namespace Sys2Proof.Proofs.Identity

open Sys2Proof.Machine

/-- Settles O52, by induction on the run: a halted block stays halted, and the encoder refuses it. -/
theorem haltedNodeNeverTransmitsAgain : Obligations.HaltedNodeNeverTransmitsAgain := by
  intro k s hwf hhalt hpower
  obtain ⟨t, hrun, hkept⟩ := exists_run_of_halted k hwf hhalt hpower
  exact ⟨t, hrun, hkept.halted, hkept.nodeId, hkept.wireOut, execWireEncode_of_halted hkept.halted⟩

end Sys2Proof.Proofs.Identity

/-! A halted node's host (R251, R270 to R272): whatever it runs on the block completes and keeps the halt, so every route ends
at the transmission check. -/

namespace Sys2Proof.Machine

/-- The procedure answers a node that meets `P`. -/
def NodeOut.Ends (o : NodeOut) (P : Node → Prop) : Prop := ∃ m, o = .next m ∧ P m

theorem NodeOut.Ends.andThen {o : NodeOut} {f : Node → NodeOut} {P Q : Node → Prop} (ho : o.Ends P)
    (hf : ∀ m, P m → (f m).Ends Q) : (o.andThen f).Ends Q := by
  obtain ⟨m, rfl, hm⟩ := ho
  exact hf m hm

theorem NodeOut.Ends.mono {o : NodeOut} {P Q : Node → Prop} (ho : o.Ends P) (h : ∀ m, P m → Q m) : o.Ends Q := by
  obtain ⟨m, hm, hP⟩ := ho
  exact ⟨m, hm, h m hP⟩

/-- No line stands for a reset (R84). -/
theorem AsmLine.all_keepsPower_expand (l : AsmLine) : l.expand.all HostAction.keepsPower = true := by
  cases l <;> rfl

theorem keepsPower_of_mem_assemble {lines : List AsmLine} {a : HostAction} (h : a ∈ assemble lines) :
    a.keepsPower = true := by
  obtain ⟨l, -, ha⟩ := List.mem_flatMap.1 h
  exact List.all_eq_true.1 l.all_keepsPower_expand a ha

/-- `m` is a halted node of a well-formed configuration, and `log` is its log. -/
structure Node.HaltedWithLog (log : List EngineEvent) (m : Node) : Prop where
  wf : m.dev.cfg.wf = true
  halted : m.dev.halted = true
  log_eq : m.log = log

section HaltedNode

variable {n : Node} {log : List EngineEvent}

namespace Node.HaltedWithLog

/-- Lines run on a halted node's block touch neither the halt nor the log. -/
theorem run (h : n.HaltedWithLog log) (lines : List AsmLine) : (n.run lines).Ends (HaltedWithLog log) := by
  obtain ⟨t, ht, hkept⟩ := exists_hostActions_of_halted (actions := assemble lines)
    (fun _ => keepsPower_of_mem_assemble) h.wf h.halted
  refine ⟨{ n with dev := t }, ?_, ⟨hkept.cfg ▸ h.wf, hkept.halted, h.log_eq⟩⟩
  rw [Node.run, Node.act, ht]

theorem reports (h : n.HaltedWithLog log) (r : Report) :
    (n.reports r).Ends fun m => m.HaltedWithLog log ∧ m.report = r :=
  ⟨_, rfl, ⟨h.wf, h.halted, h.log_eq⟩, rfl⟩

/-- The check answers 2 (R236). -/
theorem run_idTxCheck (h : n.HaltedWithLog log) :
    (n.run [.op .idTxCheck]).Ends fun m => m.HaltedWithLog log ∧ m.dev.res = 2 := by
  obtain ⟨m, hrun, hm⟩ := h.run [.op .idTxCheck]
  refine ⟨m, hrun, hm, ?_⟩
  obtain ⟨t, ht, rfl⟩ := Node.act_cases hrun
  rw [assemble_singleton] at ht
  cases (hostActions_issueActions _ _).symm.trans ht
  exact if_pos h.halted

/-- A route ends at the check, whatever the host does to acquire an address (R270). -/
theorem routeWith (h : n.HaltedWithLog log) (needId : Node → NodeOut) :
    (n.routeWith needId).Ends fun m => m.HaltedWithLog log ∧ m.report = .failure := by
  refine h.run_idTxCheck.andThen fun m hm => ?_
  obtain ⟨hm, hres⟩ := hm
  rw [hres, if_neg (by decide), if_pos rfl]
  exact hm.reports .failure

theorem stampSender (h : n.HaltedWithLog log) : n.stampSender.Ends (HaltedWithLog log) :=
  (h.run _).andThen fun _ hm => hm.run _

theorem send (h : n.HaltedWithLog log) (r : Bool) :
    (n.send r).Ends fun m => m.HaltedWithLog log ∧ m.report = .failure :=
  (h.stampSender.andThen fun _ hm => hm.run _).andThen fun _ hm => hm.routeWith _

theorem acknowledge (h : n.HaltedWithLog log) (needed : Bool) : (n.acknowledge needed).Ends (HaltedWithLog log) := by
  cases needed with
  | false => exact ⟨n, rfl, h⟩
  | true => exact ((h.run _).andThen fun _ hm => hm.routeWith _).mono fun _ hm => hm.1

end Node.HaltedWithLog

/-- The node handed to the transport what `log` records, and nothing else. -/
def Node.SendsOf (log : List EngineEvent) (n : Node) : Prop :=
  n.log.filter EngineEvent.isSend = log.filter EngineEvent.isSend

theorem Node.HaltedWithLog.sendsOf (h : n.HaltedWithLog log) : n.SendsOf log := by
  rw [Node.SendsOf, h.log_eq]

theorem Node.SendsOf.note (h : n.SendsOf log) {e : EngineEvent} (he : e.isSend = false) : (n.note e).SendsOf log := by
  rw [Node.SendsOf, Node.note, List.filter_append, List.filter_singleton, he]
  exact (List.append_nil _).trans h

theorem Node.SendsOf.reports (h : n.SendsOf log) (r : Report) : (n.reports r).Ends (Node.SendsOf log) :=
  ⟨_, rfl, h⟩

namespace Node.HaltedWithLog

/-- A halted node's time response may call the host back, and sends nothing (R277). -/
theorem timeResponse (h : n.HaltedWithLog log) : n.timeResponse.Ends (Node.SendsOf log) := by
  refine (h.run _).andThen fun m hm => ?_
  split_ifs
  · exact ⟨_, rfl, hm.sendsOf.note rfl⟩
  · exact ⟨_, rfl, hm.sendsOf⟩

/-- No dispatch sends (R272, R275 to R277). -/
theorem dispatch (h : n.HaltedWithLog log) (k : BitVec 4) : (n.dispatch k).Ends (Node.SendsOf log) := by
  unfold Node.dispatch
  split_ifs
  · exact (h.sendsOf.note rfl).reports _
  · exact ⟨_, rfl, h.sendsOf.note rfl⟩
  · exact (h.run _).andThen fun _ hm => hm.sendsOf.reports _
  · exact (h.run _).andThen fun _ hm => hm.sendsOf.reports _
  · exact h.timeResponse.andThen fun _ hm => hm.reports _
  · exact h.sendsOf.reports _

theorem receive (h : n.HaltedWithLog log) (bytes : List Byte) : (n.receive bytes).Ends (Node.SendsOf log) := by
  refine (h.run _).andThen fun m hm => ?_
  split_ifs
  · exact hm.sendsOf.reports _
  · refine (hm.run _).andThen fun p hp => ?_
    dsimp only
    split_ifs
    · exact hp.sendsOf.reports _
    · exact (hp.acknowledge _).andThen fun q hq => hq.dispatch _

theorem process (h : n.HaltedWithLog log) : n.process.Ends (Node.SendsOf log) := by
  unfold Node.process
  split
  next => exact h.sendsOf.reports _
  next bytes rest _ => exact HaltedWithLog.receive (n := { n with inbox := rest }) ⟨h.wf, h.halted, h.log_eq⟩ bytes

end Node.HaltedWithLog

end HaltedNode

end Sys2Proof.Machine

namespace Sys2Proof.Proofs.Identity

open Sys2Proof.Machine

/-- Settles O58: every route of a halted node ends at the check, and a dispatch after it sends nothing. -/
theorem haltedNodeHandsNothingToTheTransport : Obligations.HaltedNodeHandsNothingToTheTransport := by
  intro n hwf hhalt
  have h : n.HaltedWithLog n.log := ⟨hwf, hhalt, rfl⟩
  obtain ⟨m, hroute, hm, hfail⟩ := h.routeWith _
  refine ⟨⟨m, hroute, hfail, hm.log_eq⟩, fun r => ?_, h.process⟩
  obtain ⟨m, hsend, hm, hfail⟩ := h.send r
  exact ⟨m, hsend, hfail, hm.log_eq⟩

end Sys2Proof.Proofs.Identity
/-! One line of an operation run on the block (R84). -/

namespace Sys2Proof.Machine

section OperationLines

variable (s : State) (i : Instr) (v : Word)

theorem hostActions_assemble_op :
    hostActions (assemble [.op i]) s = exec i { s with inp := { s.inp with cmd := encode i } } := by
  rw [assemble_singleton]
  exact hostActions_issueActions i s

theorem hostActions_assemble_opV :
    hostActions (assemble [.opV i v]) s = exec i { s with inp := { s.inp with arg0 := v, cmd := encode i } } := by
  rw [assemble_singleton]
  exact (hostActions_cons_of_next rfl).trans (hostActions_issueActions i _)

theorem hostActions_assemble_opVP (p : Byte) :
    hostActions (assemble [.opVP i v p]) s =
      exec i { s with inp := { s.inp with arg0 := v, arg1 := p, cmd := encode i } } := by
  rw [assemble_singleton]
  exact (hostActions_cons_of_next rfl).trans ((hostActions_cons_of_next rfl).trans (hostActions_issueActions i _))

theorem hostActions_assemble_opText (text : List Byte) :
    hostActions (assemble [.opText i text]) s =
      exec i { s with inp := { s.inp with
        sin := overwrite s.inp.sin text, sinLen := countOf text.length, cmd := encode i } } := by
  rw [assemble_singleton]
  exact (hostActions_append (hostActions_wrSinActions text s)).trans (hostActions_issueActions i _)

variable {s}

/-- Lines in turn: the first, then the rest from where it left the block. -/
theorem hostActions_assemble_cons {l : AsmLine} {ls : List AsmLine} {t : State}
    (h : hostActions (assemble [l]) s = .next t) : hostActions (assemble (l :: ls)) s = hostActions (assemble ls) t := by
  rw [assemble_singleton] at h
  exact hostActions_append h

theorem Node.run_of_next {n : Node} {lines : List AsmLine} {t : State}
    (h : hostActions (assemble lines) n.dev = .next t) : n.run lines = .next { n with dev := t } := by
  rw [Node.run, Node.act, h]

end OperationLines

end Sys2Proof.Machine

/-! What a host's lines leave of the block: one frame rewritten, and the TX frame drafted line by line (R270, R278,
R279). -/

namespace Sys2Proof.Machine

open Sys2Proof.Spec

theorem lowByte_setWidth (x : Byte) : lowByte (x.setWidth 32) = x :=
  BitVec.eq_of_toNat_eq (by rw [lowByte_toNat, BitVec.toNat_setWidth]; omega)

/-- `t` is `s` with frame `b` holding `g`; beyond it only the host's registers, `RES` and `STATUS` may differ. -/
def State.Wrote (s : State) (b : Buf) (g : Frame) (t : State) : Prop :=
  t = { s.setFb b g with inp := t.inp, res := t.res, status := t.status }

namespace State.Wrote

variable {s t u : State} {b : Buf} {f g : Frame}

theorem trans (hst : s.Wrote b f t) (htu : t.Wrote b g u) : s.Wrote b g u := by
  unfold Wrote at htu
  rw [hst] at htu
  cases b <;> exact htu

theorem fb_eq (h : s.Wrote b g t) : t.fb b = g := by
  rw [h]
  cases b <;> rfl

theorem halted (h : s.Wrote b g t) : t.halted = s.halted := by
  rw [h]
  exact s.setFb_halted b g

theorem nodeId (h : s.Wrote b g t) : t.nodeId = s.nodeId := by
  rw [h]
  exact s.setFb_nodeId b g

theorem cfg (h : s.Wrote b g t) : t.cfg = s.cfg := by
  rw [h]
  exact s.setFb_cfg b g

theorem rx_eq (h : s.Wrote .tx g t) : t.rx = s.rx := by
  rw [h]
  rfl

end State.Wrote

/-- A line of an operation that only answers. -/
theorem exists_hostActions_answer {i : Instr} {s : State} {v : Word} (b : Buf)
    (h : ∀ p, exec i { s with inp := p } = State.answer { s with inp := p } v) :
    ∃ t, hostActions (assemble [.op i]) s = .next t ∧ s.Wrote b (s.fb b) t ∧ t.res = v :=
  ⟨_, (hostActions_assemble_op s i).trans (h _), by cases b <;> rfl, rfl⟩

/-- Lines that complete on every block and leave the TX frame rewritten by `F`. -/
def RewritesTx (lines : List AsmLine) (F : Frame → Frame) : Prop :=
  ∀ s : State, ∃ t, hostActions (assemble lines) s = .next t ∧ s.Wrote .tx (F s.tx) t

namespace RewritesTx

theorem cons {l : AsmLine} {ls : List AsmLine} {F G : Frame → Frame} (hl : RewritesTx [l] F) (hls : RewritesTx ls G) :
    RewritesTx (l :: ls) (G ∘ F) := by
  intro s
  obtain ⟨t, ht, hst⟩ := hl s
  obtain ⟨u, hu, htu⟩ := hls t
  rw [show t.tx = F s.tx from hst.fb_eq] at htu
  exact ⟨u, (hostActions_assemble_cons ht).trans hu, hst.trans htu⟩

/-- A header setter with a whole byte as its operand. -/
theorem setByte {i : Instr} {F : Byte → Frame → Frame}
    (h : ∀ s : State, exec i s = s.putHeader .tx (F (lowByte s.inp.arg0) s.tx)) (x : Byte) :
    RewritesTx [.opV i (x.setWidth 32)] (F x) := by
  intro s
  refine ⟨_, (hostActions_assemble_opV s i _).trans (h _), ?_⟩
  rw [lowByte_setWidth]
  rfl

theorem setField (φ : PackedField) (v : Word) : RewritesTx [.opV (φ.setter .tx) v] fun f => f.putField φ v :=
  fun s => ⟨_, (hostActions_assemble_opV s _ v).trans (φ.exec_setter .tx _), rfl⟩

theorem setEmptyString : RewritesTx [.opText (.setString .tx) []] fun f => f.setPayload PayloadTag.string.code [] :=
  fun s => ⟨_, hostActions_assemble_opText s _ [], rfl⟩

theorem setPresentation (x p : Byte) :
    RewritesTx [.opVP (.setPresentation .tx) (x.setWidth 32) p] fun f => f.setPayload PayloadTag.custom.code [x, p] := by
  have hword (v : Word) :
      RewritesTx [.opVP (.setPresentation .tx) v p] fun f => f.setPayload PayloadTag.custom.code [lowByte v, p] :=
    fun s => ⟨_, hostActions_assemble_opVP s _ v p, rfl⟩
  have h := hword (x.setWidth 32)
  rwa [lowByte_setWidth] at h

end RewritesTx

/-- The lines of an internal frame to the gateway with an empty payload, its sender aside (R278, R279). -/
def internalLines (ty sn : Byte) : List AsmLine :=
  [.opV (.setDest .tx) (gatewayAddress.setWidth 32), .opV (.setCommand .tx) (Command.internal.code.setWidth 32),
    .opV (.setReqack .tx) 0, .opV (.setAck .tx) 0, .opV (.setType .tx) (ty.setWidth 32),
    .opV (.setSensor .tx) (sn.setWidth 32), .opText (.setString .tx) []]

/-- The lines of a presentation frame, its sender aside (R278). -/
def presentationLines (p : EngineParams) : List AsmLine :=
  [.opV (.setDest .tx) (gatewayAddress.setWidth 32),
    .opV (.setCommand .tx) (Command.presentation.code.setWidth 32), .opV (.setType .tx) (p.presType.setWidth 32),
    .opV (.setSensor .tx) (p.sensorNode.setWidth 32),
    .opVP (.setPresentation .tx) (p.libVersion.setWidth 32) p.presClass]

/-- Frame `f` addressed to the gateway under a command. -/
def Frame.toGateway (f : Frame) (c : Command) : Frame :=
  Frame.putField (f.set 2 gatewayAddress) .command (c.code.setWidth 32)

/-- Frame `f` of this type and sensor. -/
def Frame.ofKind (f : Frame) (ty sn : Byte) : Frame := (f.set 5 ty).set 6 sn

/-- The header of an internal frame to the gateway, neither asking for an acknowledgment nor being one. -/
def Frame.internalHeader (f : Frame) (ty sn : Byte) : Frame :=
  (((f.toGateway .internal).putField .reqack 0).putField .ack 0).ofKind ty sn

/-- The header of a presentation frame. -/
def Frame.presentationHeader (f : Frame) (p : EngineParams) : Frame :=
  (f.toGateway .presentation).ofKind p.presType p.sensorNode

/-- What `internalLines` makes of frame `f`. -/
def Frame.internal (f : Frame) (ty sn : Byte) : Frame :=
  (f.internalHeader ty sn).setPayload PayloadTag.string.code []

/-- What `presentationLines` makes of frame `f`. -/
def Frame.presentation (f : Frame) (p : EngineParams) : Frame :=
  (f.presentationHeader p).setPayload PayloadTag.custom.code [p.libVersion, p.presClass]

theorem rewritesTx_setSender (x : Byte) : RewritesTx [.opV (.setSender .tx) (x.setWidth 32)] fun f => f.set 1 x :=
  .setByte (F := fun x f => f.set 1 x) (fun _ => rfl) x

theorem rewritesTx_setDest (x : Byte) : RewritesTx [.opV (.setDest .tx) (x.setWidth 32)] fun f => f.set 2 x :=
  .setByte (F := fun x f => f.set 2 x) (fun _ => rfl) x

theorem rewritesTx_setType (x : Byte) : RewritesTx [.opV (.setType .tx) (x.setWidth 32)] fun f => f.set 5 x :=
  .setByte (F := fun x f => f.set 5 x) (fun _ => rfl) x

theorem rewritesTx_setSensor (x : Byte) : RewritesTx [.opV (.setSensor .tx) (x.setWidth 32)] fun f => f.set 6 x :=
  .setByte (F := fun x f => f.set 6 x) (fun _ => rfl) x

theorem rewritesTx_internalLines (ty sn : Byte) : RewritesTx (internalLines ty sn) fun f => f.internal ty sn :=
  .cons (rewritesTx_setDest _) <| .cons (.setField .command _) <| .cons (.setField .reqack _) <|
    .cons (.setField .ack _) <| .cons (rewritesTx_setType ty) <| .cons (rewritesTx_setSensor sn) .setEmptyString

theorem rewritesTx_presentationLines (p : EngineParams) : RewritesTx (presentationLines p) fun f => f.presentation p :=
  .cons (rewritesTx_setDest _) <| .cons (.setField .command _) <| .cons (rewritesTx_setType _) <|
    .cons (rewritesTx_setSensor _) <| .setPresentation _ _

/-! The bytes of these frames. -/

section DraftedBytes

variable (f : Frame)

theorem Frame.fieldByte_eq_ofNat (φ : PackedField) (v : Word) {x : Nat}
    (hx : 2 ^ φ.lo * (2 ^ φ.width * ((f[φ.index]'φ.index_lt).toNat / 2 ^ (φ.lo + φ.width)) + v.toNat % 2 ^ φ.width) +
      (f[φ.index]'φ.index_lt).toNat % 2 ^ φ.lo = x) : f.fieldByte φ v = BitVec.ofNat 8 x := by
  rw [← hx, ← Frame.fieldByte_toNat, BitVec.ofNat_toNat, BitVec.setWidth_eq]

theorem Frame.fieldByte_command (v : Word) :
    f.fieldByte .command v = BitVec.ofNat 8 (f[4].toNat / 8 * 8 + v.toNat % 8) :=
  f.fieldByte_eq_ofNat .command v (by simp only [PackedField.index, PackedField.lo, PackedField.width]; omega)

theorem Frame.fieldByte_reqack (v : Word) :
    f.fieldByte .reqack v = BitVec.ofNat 8 (f[4].toNat / 16 * 16 + v.toNat % 2 * 8 + f[4].toNat % 8) :=
  f.fieldByte_eq_ofNat .reqack v (by simp only [PackedField.index, PackedField.lo, PackedField.width]; omega)

theorem Frame.fieldByte_ack (v : Word) :
    f.fieldByte .ack v = BitVec.ofNat 8 (f[4].toNat / 32 * 32 + v.toNat % 2 * 16 + f[4].toNat % 16) :=
  f.fieldByte_eq_ofNat .ack v (by simp only [PackedField.index, PackedField.lo, PackedField.width]; omega)

theorem Frame.fieldByte_version (v : Word) :
    f.fieldByte .version v = BitVec.ofNat 8 (f[3].toNat / 4 * 4 + v.toNat % 4) :=
  f.fieldByte_eq_ofNat .version v (by simp only [PackedField.index, PackedField.lo, PackedField.width]; omega)

variable (j : Nat) (hj : j < 33)

theorem Frame.getElem_putField (φ : PackedField) (v : Word) :
    (f.putField φ v)[j] = if j = φ.index then f.fieldByte φ v else f[j] := by
  rw [Frame.putField, Vector.getElem_set]
  simp only [eq_comm]

theorem Frame.getElem_toGateway (c : Command) :
    (f.toGateway c)[j] =
      if j = 2 then 0 else if j = 4 then BitVec.ofNat 8 (f[4].toNat / 8 * 8 + c.code.toNat) else f[j] := by
  have hcode : (c.code.setWidth 32 : Word).toNat % 8 = c.code.toNat := by cases c <;> rfl
  rw [Frame.toGateway, Frame.getElem_putField _ j hj, Frame.fieldByte_command, hcode]
  simp only [Vector.getElem_set, PackedField.index]
  split_ifs <;> first | omega | rfl

theorem Frame.getElem_ofKind (ty sn : Byte) :
    (f.ofKind ty sn)[j] = if j = 5 then ty else if j = 6 then sn else f[j] := by
  simp only [Frame.ofKind, Vector.getElem_set]
  split_ifs <;> first | omega | rfl

/-- Both flags of byte 4 cleared. -/
theorem Frame.getElem_clearFlags :
    ((f.putField .reqack 0).putField .ack 0)[j] =
      if j = 4 then BitVec.ofNat 8 (f[4].toNat / 32 * 32 + f[4].toNat % 8) else f[j] := by
  have hreqack : (f.putField .reqack 0)[4] = BitVec.ofNat 8 (f[4].toNat / 16 * 16 + f[4].toNat % 8) := by
    rw [Frame.getElem_putField]
    exact (if_pos rfl).trans (f.fieldByte_reqack 0)
  have hack : (f.putField .reqack 0).fieldByte .ack 0 = BitVec.ofNat 8 (f[4].toNat / 32 * 32 + f[4].toNat % 8) := by
    have := f[4].isLt
    have hzero : (0 : Word).toNat = 0 := rfl
    rw [Frame.fieldByte_ack, hreqack, BitVec.toNat_ofNat, hzero]
    congr 1
    omega
  rw [Frame.getElem_putField _ j hj, Frame.getElem_putField _ j hj, hack]
  by_cases h : j = 4
  · exact (if_pos h).trans (if_pos h).symm
  · exact ((if_neg h).trans (if_neg h)).trans (if_neg h).symm

theorem Frame.getElem_internalHeader (ty sn : Byte) :
    (f.internalHeader ty sn)[j] =
      if j = 2 then 0
      else if j = 4 then BitVec.ofNat 8 (f[4].toNat / 32 * 32 + 3)
      else if j = 5 then ty
      else if j = 6 then sn
      else f[j] := by
  have hcommand : (f.toGateway .internal)[4].toNat = f[4].toNat / 8 * 8 + 3 := by
    have hcode : Command.internal.code.toNat = 3 := rfl
    have := f[4].isLt
    rw [Frame.getElem_toGateway, if_neg (by omega), if_pos rfl, hcode, BitVec.toNat_ofNat]
    omega
  have hflags : (f[4].toNat / 8 * 8 + 3) / 32 * 32 + (f[4].toNat / 8 * 8 + 3) % 8 = f[4].toNat / 32 * 32 + 3 := by omega
  rw [Frame.internalHeader, Frame.getElem_ofKind _ j hj, Frame.getElem_clearFlags _ j hj, hcommand, hflags,
    Frame.getElem_toGateway _ j hj]
  split_ifs <;> first | omega | rfl

theorem Frame.getElem_presentationHeader (p : EngineParams) :
    (f.presentationHeader p)[j] =
      if j = 2 then 0
      else if j = 4 then BitVec.ofNat 8 (f[4].toNat / 8 * 8)
      else if j = 5 then p.presType
      else if j = 6 then p.sensorNode
      else f[j] := by
  rw [Frame.presentationHeader, Frame.getElem_ofKind _ j hj, Frame.getElem_toGateway _ j hj]
  split_ifs <;> first | omega | rfl

theorem Frame.getElem_internal (ty sn : Byte) :
    (f.internal ty sn)[j] =
      if j = 2 then 0
      else if j = 3 then BitVec.ofNat 8 (f[3].toNat % 8)
      else if j = 4 then 3
      else if j = 5 then ty
      else if j = 6 then sn
      else if j = 7 then 0
      else f[j] := by
  have hlength : 0 * 8 + (f.internalHeader ty sn)[3].toNat % 8 = f[3].toNat % 8 := by
    rw [Frame.getElem_internalHeader]
    exact Nat.zero_add _
  have hflags : 0 * 32 + (f.internalHeader ty sn)[4].toNat % 32 = 3 := by
    rw [Frame.getElem_internalHeader, if_neg (by omega), if_pos rfl, BitVec.toNat_ofNat]
    omega
  rw [Frame.internal, writesPayload_setPayload _ _ _ j hj, List.length_nil, hlength,
    show PayloadTag.string.code.toNat = 0 from rfl, hflags, Frame.getElem_internalHeader _ j hj]
  split_ifs <;> first | omega | rfl

theorem Frame.getElem_presentation (p : EngineParams) :
    (f.presentation p)[j] =
      if j = 2 then 0
      else if j = 3 then BitVec.ofNat 8 (2 * 8 + f[3].toNat % 8)
      else if j = 4 then BitVec.ofNat 8 (6 * 32 + f[4].toNat % 32 / 8 * 8)
      else if j = 5 then p.presType
      else if j = 6 then p.sensorNode
      else if j = 7 then p.libVersion
      else if j = 8 then p.presClass
      else if j = 9 then 0
      else f[j] := by
  have hlength : (f.presentationHeader p)[3] = f[3] := by
    rw [Frame.getElem_presentationHeader]
    rfl
  have hflags : (f.presentationHeader p)[4].toNat % 32 = f[4].toNat % 32 / 8 * 8 := by
    have := f[4].isLt
    rw [Frame.getElem_presentationHeader, if_neg (by omega), if_pos rfl, BitVec.toNat_ofNat]
    omega
  have hpair : ∀ k, [p.libVersion, p.presClass].getD k 0 =
      if k = 0 then p.libVersion else if k = 1 then p.presClass else 0 := by
    rintro (_ | _ | k) <;> rfl
  rw [Frame.presentation, writesPayload_setPayload _ _ _ j hj, hlength, hflags, hpair,
    Frame.getElem_presentationHeader _ j hj, show [p.libVersion, p.presClass].length = 2 from rfl]
  split_ifs <;> first | omega | rfl

end DraftedBytes
end Sys2Proof.Machine

/-! The frames the host builds, as procedures (R271, R278). -/

namespace Sys2Proof.Machine

section DraftingProcedures

variable (n : Node)

theorem RewritesTx.run {lines : List AsmLine} {F : Frame → Frame} (h : RewritesTx lines F) :
    ∃ t, n.run lines = .next { n with dev := t } ∧ n.dev.Wrote .tx (F n.dev.tx) t := by
  obtain ⟨t, ht, hwrote⟩ := h n.dev
  exact ⟨t, Node.run_of_next ht, hwrote⟩

theorem exists_hostActions_getNodeId (s : State) :
    ∃ t, hostActions (assemble [.op .getNodeId]) s = .next t ∧ s.Wrote .tx s.tx t ∧ t.res = s.nodeId.setWidth 32 :=
  exists_hostActions_answer (v := s.nodeId.setWidth 32) .tx fun _ => rfl

/-- The host reads its address and writes it as the sender (R271). -/
theorem Node.exists_stampSender :
    ∃ t, n.stampSender = .next { n with dev := t } ∧ n.dev.Wrote .tx (n.dev.tx.set 1 n.dev.nodeId) t := by
  obtain ⟨t, ht, hread, hres⟩ := exists_hostActions_getNodeId n.dev
  obtain ⟨u, hu, hwrote⟩ := (rewritesTx_setSender n.dev.nodeId).run { n with dev := t }
  rw [show t.tx = n.dev.tx from hread.fb_eq] at hwrote
  refine ⟨u, ?_, hread.trans hwrote⟩
  rw [Node.stampSender, Node.run_of_next ht, NodeOut.andThen_next, hres]
  exact hu

/-- Lines that rewrite the TX frame, after the sender is stamped. -/
theorem Node.exists_stampSender_run {lines : EngineParams → Config → List AsmLine}
    {F : EngineParams → Config → Frame → Frame} (h : ∀ p c, RewritesTx (lines p c) (F p c)) :
    ∃ t, (n.stampSender.andThen fun m => m.run (lines m.params m.dev.cfg)) = .next { n with dev := t } ∧
      n.dev.Wrote .tx (F n.params n.dev.cfg (n.dev.tx.set 1 n.dev.nodeId)) t := by
  obtain ⟨t, hstamp, hwrote⟩ := n.exists_stampSender
  obtain ⟨u, hrun, hwrote'⟩ := (h n.params t.cfg).run { n with dev := t }
  have htx : t.tx = n.dev.tx.set 1 n.dev.nodeId := hwrote.fb_eq
  rw [hwrote.cfg, htx] at hwrote'
  exact ⟨u, by rw [hstamp]; exact hrun, hwrote.trans hwrote'⟩

theorem Node.exists_configRequest :
    ∃ t, n.configRequest = .next { n with dev := t } ∧
      n.dev.Wrote .tx (Frame.internal (n.dev.tx.set 1 n.dev.nodeId) n.dev.cfg.iConfig n.params.sensorNode) t :=
  n.exists_stampSender_run fun p c => rewritesTx_internalLines c.iConfig p.sensorNode

theorem Node.exists_presentation :
    ∃ t, n.presentation = .next { n with dev := t } ∧
      n.dev.Wrote .tx (Frame.presentation (n.dev.tx.set 1 n.dev.nodeId) n.params) t :=
  n.exists_stampSender_run fun p _ => rewritesTx_presentationLines p

end DraftingProcedures

end Sys2Proof.Machine

namespace Sys2Proof.Proofs.EngineBoundary

open Sys2Proof.Machine

/-- Settles O59: each frame is drafted over the TX frame with this node's address as its sender. -/
theorem internalFramesTheHostBuilds : Obligations.InternalFramesTheHostBuilds := by
  intro n
  have hsender (j : Nat) (hj : j < 33) :
      (n.dev.tx.set 1 n.dev.nodeId)[j] = if j = 1 then n.dev.nodeId else n.dev.tx[j] := by
    simp only [Vector.getElem_set, eq_comm]
  obtain ⟨t, hconfig, ht⟩ := n.exists_configRequest
  obtain ⟨u, hpresent, hu⟩ := n.exists_presentation
  refine ⟨⟨_, hconfig, rfl, ht.rx_eq, fun j hj => ?_⟩, ⟨_, hpresent, rfl, hu.rx_eq, fun j hj => ?_⟩⟩
  · rw [show t.tx = _ from ht.fb_eq, Frame.getElem_internal _ j hj]
    simp only [hsender]
    split_ifs <;> first | omega | rfl
  · rw [show u.tx = _ from hu.fb_eq, Frame.getElem_presentation _ j hj]
    simp only [hsender]
    split_ifs <;> first | omega | rfl

end Sys2Proof.Proofs.EngineBoundary

/-! A permitted route: the frame is stamped, encoded, handed to the transport once, and its outcome counted (R270). -/

namespace Sys2Proof.Machine

open Sys2Proof.Spec

/-- Frame `f` with this protocol version. -/
def Frame.stamped (f : Frame) : Frame := f.putField .version (protocolVersion.setWidth 32)

section StampedFrame

variable (f : Frame)

theorem Frame.getElem_stamped (j : Nat) (hj : j < 33) :
    f.stamped[j] = if j = 3 then BitVec.ofNat 8 (f[3].toNat / 4 * 4 + 2) else f[j] := by
  rw [Frame.stamped, Frame.getElem_putField _ j hj, Frame.fieldByte_version]
  rfl

/-- The stamp leaves the length and the gate's test. -/
theorem Frame.len_stamped : f.stamped.len = f.len := by
  have := f[3].isLt
  rw [Frame.len_eq, Frame.len_eq, Frame.getElem_stamped, if_pos rfl, BitVec.toNat_ofNat]
  omega

theorem Frame.isIdRequest_stamped (c : Config) : IsIdRequest f.stamped c ↔ IsIdRequest f c := by
  simp only [IsIdRequest, Frame.getElem_stamped]
  rfl

theorem Frame.wireBytes_eq {f : Frame} (hlen : f.len ≤ 25) : f.wireBytes = (List.range (7 + f.len)).map f.byte := by
  refine List.ext_getElem (by rw [Frame.length_wireBytes hlen, List.length_map, List.length_range]) fun j hj _ => ?_
  rw [Frame.length_wireBytes hlen] at hj
  simp [Frame.wireBytes, Frame.getElem_wireImage, Frame.byte, hj, show j < 33 by omega]

theorem Frame.wireBytes_stamped {f : Frame} (hlen : f.len ≤ 25) : f.stamped.wireBytes = stampedBytes f := by
  rw [Frame.wireBytes_eq (f.len_stamped.trans_le hlen), Frame.len_stamped, Frame.len_eq, stampedBytes]
  refine List.map_congr_left fun j hj => ?_
  have hj33 : j < 33 := by
    have := List.mem_range.1 hj
    have := f[3].isLt
    rw [Frame.len_eq] at hlen
    omega
  rw [Frame.byte, dif_pos hj33, Frame.getElem_stamped, Frame.byte, dif_pos hj33]

end StampedFrame

/-- `t` is `s` after it has encoded the stamped frame `g`, to be sent; `count` is the failure counter. -/
def State.Encoded (s : State) (g : Frame) (count : Byte) (t : State) : Prop :=
  t = { s with
    inp := t.inp, res := t.res, status := t.status, wireOut := t.wireOut, wireOutCount := t.wireOutCount
    wireOutDest := t.wireOutDest, tx := g.stamped, reqPending := s.nodeId == autoAddress || s.reqPending
    failCnt := count }

/-- `t` is `s` after frame `g` was stamped, encoded and sent with this outcome. -/
def State.Sent (s : State) (g : Frame) (ok : Bool) (t : State) : Prop :=
  s.Encoded g (if ok = true then 0 else s.failCnt + 1) t

namespace State.Sent

variable {s t : State} {g : Frame} {ok : Bool}

theorem failCnt (h : s.Sent g ok t) : t.failCnt = if ok = true then 0 else s.failCnt + 1 := (congrArg State.failCnt h :)
theorem rx (h : s.Sent g ok t) : t.rx = s.rx := (congrArg State.rx h :)
theorem tx (h : s.Sent g ok t) : t.tx = g.stamped := (congrArg State.tx h :)
theorem halted (h : s.Sent g ok t) : t.halted = s.halted := (congrArg State.halted h :)
theorem nodeId (h : s.Sent g ok t) : t.nodeId = s.nodeId := (congrArg State.nodeId h :)
theorem reqPending (h : s.Sent g ok t) : t.reqPending = (s.nodeId == autoAddress || s.reqPending) :=
  (congrArg State.reqPending h :)
theorem cfg (h : s.Sent g ok t) : t.cfg = s.cfg := (congrArg State.cfg h :)
theorem storageWrites (h : s.Sent g ok t) : t.storageWrites = s.storageWrites := (congrArg State.storageWrites h :)

end State.Sent

/-- The node whose block is `t` after its host has handed these bytes to the transport and counted the outcome. -/
def Node.afterSend (n : Node) (dest : Byte) (bytes : List Byte) (t : State) : Node :=
  { n with
    dev := t
    outcomes := n.outcomes.tail
    log := n.log ++ [.sent dest bytes (n.outcomes.headD false)]
    report := if n.outcomes.headD false = true then .success else .failure }

/-- The stamp and the encode of a frame that passes the gate (R212, R270). -/
theorem exists_hostActions_stamp_encode {s : State} (hlive : s.halted = false)
    (hgate : s.nodeId ≠ 255 ∨ IsIdRequest s.tx s.cfg) (hlen : s.tx.len ≤ 25) :
    ∃ t, hostActions (assemble [.opV (.setVersion .tx) (protocolVersion.setWidth 32), .op .wireEncode]) s = .next t ∧
      s.Encoded s.tx s.failCnt t ∧ t.status = Status.ok.code ∧ t.wireOutDest = s.tx.dest ∧
      t.wireFrame = stampedBytes s.tx := by
  obtain ⟨t, ht, hst⟩ := RewritesTx.setField .version (protocolVersion.setWidth 32) s
  have htx : t.tx = s.tx.stamped := hst.fb_eq
  have hid : t.needsId = false := by
    rw [← Bool.not_eq_true, State.needsId_iff, htx, Frame.isIdRequest_stamped, hst.nodeId, hst.cfg]
    tauto
  have hsent : t.tx.len ≤ 25 := by rwa [htx, Frame.len_stamped]
  have hencode := execWireEncode_of_permitted (s := { t with inp := { t.inp with cmd := encode .wireEncode } })
    (hst.halted.trans hlive) hsent hid
  refine ⟨_, (hostActions_assemble_cons ht).trans ((hostActions_assemble_op t _).trans hencode), ?_, rfl, ?_, ?_⟩
  · rw [State.Encoded, hst]
    rfl
  · show t.tx[2] = s.tx[2]
    rw [htx, Frame.getElem_stamped]
    rfl
  · have hcount : (BitVec.ofNat 6 (7 + t.tx.len)).toNat = 7 + t.tx.len := by
      rw [BitVec.toNat_ofNat, Nat.mod_eq_of_lt (by omega)]
    rw [← Frame.wireBytes_stamped hlen, ← htx]
    simp only [State.wireFrame, Frame.wireBytes, hcount]

theorem exists_hostActions_idTxCheck (s : State) :
    ∃ t, hostActions (assemble [.op .idTxCheck]) s = .next t ∧ s.Wrote .tx s.tx t ∧
      t.res = if s.halted = true then 2 else if s.needsId = true then 1 else 0 :=
  exists_hostActions_answer (v := if s.halted = true then 2 else if s.needsId = true then 1 else 0) .tx fun _ => rfl

/-- The host reports an outcome of the transport, and `TX_RESULT` counts it (R237, R270). -/
theorem exists_hostActions_outcome (s : State) (ok : Bool) :
    ∃ t, hostActions (assemble [.opV .txResult (if ok = true then 1 else 0)]) s = .next t ∧
      t = { s with inp := t.inp, status := t.status, failCnt := if ok = true then 0 else s.failCnt + 1 } := by
  have hbit : (if ok = true then 1 else 0 : Word).getLsbD 0 = ok := by cases ok <;> decide
  have hexec (u : State) (hu : u.inp.arg0.getLsbD 0 = ok) :
      exec .txResult u = .next (State.finish { u with failCnt := if ok = true then 0 else u.failCnt + 1 } .ok) := by
    rw [← hu]
    rfl
  exact ⟨_, (hostActions_assemble_opV s .txResult _).trans (hexec _ hbit), rfl⟩

theorem Node.exists_transmit {n : Node} {s : State} {g : Frame} (h : s.Encoded g s.failCnt n.dev) :
    ∃ t, n.transmit = .next (n.afterSend n.dev.wireOutDest n.dev.wireFrame t) ∧
      s.Sent g (n.outcomes.headD false) t := by
  obtain ⟨t, ht, hcount⟩ := exists_hostActions_outcome n.dev (n.outcomes.headD false)
  refine ⟨t, ?_, ?_⟩
  · have hrun := Node.run_of_next (n := Node.note { n with outcomes := n.outcomes.tail }
      (.sent n.dev.wireOutDest n.dev.wireFrame (n.outcomes.headD false))) ht
    rw [Node.transmit]
    exact congrArg (NodeOut.andThen · _) hrun
  · rw [State.Sent, State.Encoded, hcount, h]

/-- A route whose frame passes the gate, whatever else the host would do to acquire an address (R270). -/
theorem Node.exists_routeWith {n : Node} (needId : Node → NodeOut) (hlive : n.dev.halted = false)
    (hgate : n.dev.nodeId ≠ 255 ∨ IsIdRequest n.dev.tx n.dev.cfg) (hlen : n.dev.tx.len ≤ 25) :
    ∃ t, n.routeWith needId = .next (n.afterSend n.dev.tx.dest (stampedBytes n.dev.tx) t) ∧
      n.dev.Sent n.dev.tx (n.outcomes.headD false) t := by
  have hid : n.dev.needsId = false := by
    rw [← Bool.not_eq_true, State.needsId_iff]
    tauto
  have hanswer : (if n.dev.halted = true then 2 else if n.dev.needsId = true then 1 else 0 : Word) = 0 := by
    rw [hlive, hid]
    rfl
  obtain ⟨t, ht, hcheck, hres⟩ := exists_hostActions_idTxCheck n.dev
  have htx : t.tx = n.dev.tx := hcheck.fb_eq
  obtain ⟨u, hu, hencoded, hstatus, hdest, hbytes⟩ := exists_hostActions_stamp_encode (s := t)
    (hcheck.halted.trans hlive) (by rwa [htx, hcheck.nodeId, hcheck.cfg]) (by rwa [htx])
  obtain ⟨v, htransmit, hsent⟩ := Node.exists_transmit (n := { n with dev := u }) hencoded
  refine ⟨v, ?_, ?_⟩
  · rw [Node.routeWith, Node.run_of_next ht, NodeOut.andThen_next, hres, hanswer, if_neg (by decide), if_neg (by decide),
      Node.run_of_next hu, NodeOut.andThen_next, if_pos hstatus, htransmit, hdest, hbytes, htx]
    rfl
  · rw [hcheck] at hsent
    exact hsent

end Sys2Proof.Machine

/-! The frames the host drafts and routes: what the transport is handed (R270, R278, R279). -/

namespace Sys2Proof.Machine

open Sys2Proof.Spec

section DraftedFrames

variable (f : Frame) (a : Byte)

/-- The wire bytes of a frame whose payload has `k` bytes, its header written out. -/
theorem stampedBytes_eq {k : Nat} (h : f[3].toNat / 8 = k) :
    stampedBytes f =
      [f[0], f[1], f[2], BitVec.ofNat 8 (f[3].toNat / 4 * 4 + 2), f[4], f[5], f[6]] ++
        (List.range k).map fun j => f.byte (7 + j) := by
  have htail : ∀ j, (if 7 + j = 3 then BitVec.ofNat 8 (f[3].toNat / 4 * 4 + 2) else f.byte (7 + j)) = f.byte (7 + j) :=
    fun j => if_neg (by omega)
  rw [stampedBytes, h, List.range_add, List.map_append, List.map_map]
  simp only [Function.comp_def, htail]
  rfl

theorem stampedBytes_internal (ty sn : Byte) :
    stampedBytes (Frame.internal (f.set 1 a) ty sn) =
      [f[0], a, 0, BitVec.ofNat 8 (f[3].toNat % 8 / 4 * 4 + 2), 3, ty, sn] := by
  have hflags : (Frame.internal (f.set 1 a) ty sn)[3].toNat = f[3].toNat % 8 := by
    rw [Frame.getElem_internal, if_neg (by omega), if_pos rfl, BitVec.toNat_ofNat]
    simp only [Vector.getElem_set]
    exact Nat.mod_eq_of_lt (by omega)
  rw [stampedBytes_eq _ (k := 0) (by omega), hflags]
  simp only [Frame.getElem_internal, Vector.getElem_set]
  rfl

theorem stampedBytes_presentation (p : EngineParams) :
    stampedBytes (Frame.presentation (f.set 1 a) p) = presentationBytes f a p := by
  have hflags : (Frame.presentation (f.set 1 a) p)[3].toNat = 2 * 8 + f[3].toNat % 8 := by
    rw [Frame.getElem_presentation, if_neg (by omega), if_pos rfl, BitVec.toNat_ofNat]
    simp only [Vector.getElem_set]
    exact Nat.mod_eq_of_lt (by omega)
  have hstamp : (2 * 8 + f[3].toNat % 8) / 4 * 4 + 2 = 2 * 8 + f[3].toNat % 8 / 4 * 4 + 2 := by omega
  have hpayload : (List.range 2).map (fun j => (Frame.presentation (f.set 1 a) p).byte (7 + j)) =
      [p.libVersion, p.presClass] := by
    simp [List.range_succ, Frame.byte, Frame.getElem_presentation]
  rw [stampedBytes_eq _ (k := 2) (by omega), hflags, hstamp, hpayload]
  simp only [Frame.getElem_presentation, Vector.getElem_set]
  rfl

theorem Frame.len_internal (ty sn : Byte) : (f.internal ty sn).len = 0 := by
  rw [Frame.len_eq, Frame.getElem_internal, if_neg (by omega), if_pos rfl, BitVec.toNat_ofNat]
  omega

theorem Frame.len_presentation (p : EngineParams) : (f.presentation p).len = 2 := by
  rw [Frame.len_eq, Frame.getElem_presentation, if_neg (by omega), if_pos rfl, BitVec.toNat_ofNat]
  omega

theorem Frame.dest_internal (ty sn : Byte) : (f.internal ty sn).dest = 0 :=
  f.getElem_internal 2 (by omega) ty sn

theorem Frame.dest_presentation (p : EngineParams) : (f.presentation p).dest = 0 :=
  f.getElem_presentation 2 (by omega) p

/-- An internal frame of the identity request's type is one (R245). -/
theorem Frame.isIdRequest_internal (c : Config) (sn : Byte) : IsIdRequest (f.internal c.iIdRequest sn) c := by
  simp only [IsIdRequest, Frame.getElem_internal]
  exact ⟨rfl, rfl⟩

end DraftedFrames

section RoutedDrafts

variable {n : Node} {s : State} {g : Frame}

/-- A procedure that drafts a frame which passes the gate, and then a route. -/
theorem Node.exists_draft_routeWith {draft : NodeOut} (needId : Node → NodeOut)
    (hdraft : draft = .next { n with dev := s }) (hwrote : n.dev.Wrote .tx g s) (hlive : n.dev.halted = false)
    (hgate : n.dev.nodeId ≠ 255 ∨ IsIdRequest g n.dev.cfg) (hlen : g.len ≤ 25) :
    ∃ t, draft.andThen (Node.routeWith needId) = .next (n.afterSend g.dest (stampedBytes g) t) ∧
      n.dev.Sent g (n.outcomes.headD false) t := by
  have htx : s.tx = g := hwrote.fb_eq
  obtain ⟨t, hroute, hsent⟩ := Node.exists_routeWith (n := { n with dev := s }) needId (hwrote.halted.trans hlive)
    (by rwa [htx, hwrote.nodeId, hwrote.cfg]) (by rwa [htx])
  refine ⟨t, ?_, ?_⟩
  · rw [hdraft, NodeOut.andThen_next, hroute, htx]
    rfl
  · rw [htx, hwrote] at hsent
    exact hsent

/-- The identity request goes out, once (R279). -/
theorem Node.exists_acquireId (hlive : n.dev.halted = false) :
    ∃ t, n.acquireId = .next (n.afterSend 0 (idRequestBytes n.dev.tx n.dev.cfg n.params) t) ∧
      n.dev.Sent (Frame.internal (n.dev.tx.set 1 255) n.dev.cfg.iIdRequest n.params.sensorNode)
        (n.outcomes.headD false) t := by
  obtain ⟨s, hrun, hwrote⟩ := (RewritesTx.cons (rewritesTx_setSender autoAddress)
    (rewritesTx_internalLines n.dev.cfg.iIdRequest n.params.sensorNode)).run n
  obtain ⟨t, hroute, hsent⟩ := Node.exists_draft_routeWith (fun m => m.reports .failure) hrun hwrote hlive
    (.inr (Frame.isIdRequest_internal _ _ _)) ((Frame.len_internal _ _ _).trans_le (by omega))
  refine ⟨t, hroute.trans ?_, hsent⟩
  rw [Function.comp_apply, Frame.dest_internal, stampedBytes_internal]
  rfl

end RoutedDrafts

end Sys2Proof.Machine

namespace Sys2Proof.Proofs.EngineBoundary

open Sys2Proof.Machine Sys2Proof.Spec

/-- Settles O54: the frame of an assigned node passes the gate. -/
theorem routeSendsTheStampedFrame : Obligations.RouteSendsTheStampedFrame := by
  intro n hlive hassigned hlen
  obtain ⟨t, hroute, hsent⟩ := Node.exists_routeWith _ hlive (.inl hassigned) (n.dev.tx.len_eq.trans_le hlen)
  exact ⟨_, hroute, rfl, rfl, hsent.failCnt, rfl, hsent.rx⟩

/-- Settles O55: the check asks for an address, and the request for one is a frame that passes the gate. -/
theorem unassignedRouteSendsTheIdentityRequest : Obligations.UnassignedRouteSendsTheIdentityRequest := by
  intro n hlive hauto hordinary
  obtain ⟨t, ht, hcheck, hres⟩ := exists_hostActions_idTxCheck n.dev
  have hasks : t.res = 1 := by
    rw [hres, hlive, n.dev.needsId_iff.2 ⟨hauto, hordinary⟩]
    rfl
  obtain ⟨u, hrequest, hsent⟩ := Node.exists_acquireId (n := { n with dev := t }) (hcheck.halted.trans hlive)
  have htx : t.tx = n.dev.tx := hcheck.fb_eq
  have hnode : t.nodeId = 255 := hcheck.nodeId.trans hauto
  refine ⟨{ n.afterSend 0 (idRequestBytes t.tx t.cfg n.params) u with report := .failure }, ?_, rfl, ?_, ?_, ?_⟩
  · rw [Node.route, Node.routeWith, Node.run_of_next ht, NodeOut.andThen_next, if_pos hasks, hrequest]
    rfl
  · refine hsent.reqPending.trans ?_
    rw [hnode]
    rfl
  · exact hsent.nodeId.trans hnode
  · rw [htx, hcheck.cfg]
    rfl

end Sys2Proof.Proofs.EngineBoundary

/-! Received bytes: what the decoder and the classification make of them (R211, R242), and so what `PROCESS()` does with
them (R272). -/

namespace Sys2Proof.Machine

open Sys2Proof.Spec

/-- The bytes are a whole frame (R211). -/
structure WholeFrame (bytes : List Byte) : Prop where
  long : 7 ≤ bytes.length
  short : bytes.length ≤ 32
  fits : (bytes.getD 3 0).toNat / 8 ≤ 25
  announced : 7 + (bytes.getD 3 0).toNat / 8 ≤ bytes.length

/-- Frame `f` holds the bytes up to the length they announce. -/
def Frame.Holds (f : Frame) (bytes : List Byte) : Prop :=
  ∀ (j : Nat) (h : j < 33), j < 7 + (bytes.getD 3 0).toNat / 8 → f[j] = bytes.getD j 0

/-- A byte of the header. -/
theorem Frame.Holds.header {f : Frame} {bytes : List Byte} (h : f.Holds bytes) (j : Nat) (hj : j < 7) :
    f[j] = bytes.getD j 0 := h j (by omega) (by omega)

section ReceivedBytes

variable {bytes : List Byte} (s : State)

theorem Frame.holds_receive (hwhole : WholeFrame bytes) (f : Frame) (w : Vector Byte 32) :
    (f.receive (overwrite w bytes) ((bytes.getD 3 0).toNat / 8)).Holds bytes := by
  intro j hj hsent
  have hfits := hwhole.fits
  have hannounced := hwhole.announced
  rw [Frame.getElem_receive, if_pos hsent, dif_pos (by omega), getElem_overwrite, if_pos (by omega)]

/-- The host's registers once it has written the bytes to the wire port and the word of `WIRE_DECODE` to `CMD`. -/
def Inputs.offering (p : Inputs) (bytes : List Byte) : Inputs :=
  { p with wireIn := overwrite p.wireIn bytes, wireInCount := countOf bytes.length, cmd := encode .wireDecode }

theorem Inputs.wireInCount_offering (p : Inputs) (bytes : List Byte) :
    (p.offering bytes).wireInCount.toNat = min bytes.length 63 := by
  rw [Inputs.offering, countOf, BitVec.toNat_ofNat, Nat.mod_eq_of_lt (by omega)]

theorem Inputs.wireLen_offering (p : Inputs) (hlong : 7 ≤ bytes.length) :
    (p.offering bytes).wireLen = (bytes.getD 3 0).toNat / 8 := by
  rw [Inputs.wireLen_eq]
  simp only [Inputs.offering, getElem_overwrite]
  rw [if_pos (by omega)]

/-- The host writes the bytes to the wire port and decodes them. -/
theorem hostActions_wireDecode (bytes : List Byte) :
    hostActions (assemble [.wrWireIn bytes, .op .wireDecode]) s =
      exec .wireDecode { s with inp := s.inp.offering bytes } :=
  (hostActions_append (hostActions_wrWireInActions bytes s)).trans (hostActions_assemble_op _ _)

theorem exists_wireDecode_of_whole (hwhole : WholeFrame bytes) :
    ∃ t g, hostActions (assemble [.wrWireIn bytes, .op .wireDecode]) s = .next t ∧ s.Wrote .rx g t ∧
      t.status = Status.ok.code ∧ g.Holds bytes := by
  have hcount := s.inp.wireInCount_offering bytes
  have hlen := s.inp.wireLen_offering hwhole.long
  have hshort := hwhole.short
  have hdecode := execWireDecode_of_whole (s := { s with inp := s.inp.offering bytes }) (hlen.trans_le hwhole.fits)
    (by rw [hlen, hcount]; exact hwhole.announced.trans_eq (by omega)) (hcount.trans_le (by omega))
  refine ⟨_, _, (hostActions_wireDecode s bytes).trans hdecode, rfl, rfl, ?_⟩
  rw [hlen]
  exact Frame.holds_receive hwhole _ _

theorem exists_wireDecode_of_not_whole (hwhole : ¬ WholeFrame bytes) :
    ∃ t, hostActions (assemble [.wrWireIn bytes, .op .wireDecode]) s = .next t ∧ s.Wrote .rx s.rx t ∧
      t.status = Status.malformed.code := by
  have hcount := s.inp.wireInCount_offering bytes
  refine ⟨_, (hostActions_wireDecode s bytes).trans (execWireDecode_of_not_whole ?_), rfl, rfl⟩
  rw [hcount]
  by_cases hlong : 7 ≤ bytes.length
  · rw [s.inp.wireLen_offering hlong]
    by_contra hno
    exact hwhole ⟨hlong, by omega, by omega, by omega⟩
  · exact .inl (by omega)

theorem exists_hostActions_rxClassify :
    ∃ t, hostActions (assemble [.op .rxClassify]) s = .next t ∧ s.Wrote .rx s.rx t ∧ t.res = s.rxReport :=
  exists_hostActions_answer (v := s.rxReport) .rx fun _ => rfl

theorem flag_append_class_bits (flag : BitVec 1) (k : BitVec 4) :
    ((flag ++ k).setWidth 32 : Word).extractLsb' 0 4 = k ∧
      ((flag ++ k).setWidth 32 : Word).getLsbD 4 = flag.getLsbD 0 := by
  revert flag k
  decide

theorem State.class_rxReport : s.rxReport.extractLsb' 0 4 = s.rxClass.code :=
  (flag_append_class_bits _ _).1

theorem RxClass.code_injective : Function.Injective RxClass.code := by
  intro k l
  cases k <;> cases l <;> decide

end ReceivedBytes

section Reception

variable (n : Node) {bytes : List Byte}

/-- Bytes that are no whole frame are dropped by the decoder (R211, R272). -/
theorem Node.exists_receive_of_not_whole (hwhole : ¬ WholeFrame bytes) :
    ∃ t, n.receive bytes = .next { n with dev := t, report := .notHandled } ∧ n.dev.Wrote .rx n.dev.rx t := by
  obtain ⟨t, ht, hwrote, hstatus⟩ := exists_wireDecode_of_not_whole n.dev hwhole
  refine ⟨t, ?_, hwrote⟩
  rw [Node.receive, Node.run_of_next ht, NodeOut.andThen_next, if_pos hstatus]
  rfl

/-- A whole frame is received and classified, and then dropped, or acknowledged where it asks for it and dispatched
(R272). -/
theorem Node.exists_receive_of_whole (hwhole : WholeFrame bytes) :
    ∃ t g, n.dev.Wrote .rx g t ∧ g.Holds bytes ∧
      n.receive bytes =
        if t.rxClass = .dropVersion ∨ t.rxClass = .notForMe then Node.reports { n with dev := t } .notHandled
        else (Node.acknowledge (t.rxReport.getLsbD 4) { n with dev := t }).andThen (Node.dispatch t.rxClass.code) := by
  obtain ⟨s, g, hs, hdecoded, hstatus, hholds⟩ := exists_wireDecode_of_whole n.dev hwhole
  obtain ⟨t, ht, hclassified, hres⟩ := exists_hostActions_rxClassify s
  have hclass : t.rxClass = s.rxClass := by
    rw [hclassified]
    rfl
  have hreport : t.rxReport = s.rxReport := by
    rw [hclassified]
    rfl
  rw [show s.rx = g from hdecoded.fb_eq] at hclassified
  refine ⟨t, g, hdecoded.trans hclassified, hholds, ?_⟩
  rw [Node.receive, Node.run_of_next hs, NodeOut.andThen_next, if_neg (by rw [hstatus]; decide), Node.run_of_next ht,
    NodeOut.andThen_next]
  simp only [hres, State.class_rxReport, RxClass.code_injective.eq_iff, hclass, hreport]

/-- The frames that go to the application (R242). -/
theorem State.rxClass_eq_app_iff (s : State) :
    s.rxClass = .app ↔ s.rx[3].toNat % 4 = 2 ∧ s.rx[2] = s.nodeId ∧ ¬ (s.rx[4].toNat % 8 = 3 ∧ s.rx[1] = 0) := by
  rw [← s.rx.isInternal_iff, ← not_iff_not.1 s.rx.version_ne_iff]
  show s.rxClass = .app ↔ s.rx.version = protocolVersion ∧ s.rx.dest = s.nodeId ∧
    ¬ (s.rx.command = Command.internal.code ∧ s.rx.sender = gatewayAddress)
  unfold State.rxClass
  dsimp only
  split_ifs <;> simp_all

/-- The report asks for an acknowledgment where the frame does (R242). -/
theorem State.flag_rxReport_of_app {s : State} (happ : s.rxClass = .app) (hasked : s.rx[4].toNat / 8 % 2 = 1) :
    s.rxReport.getLsbD 4 = true := by
  have hflag : s.rx.reqAck.toNat = s.rx[4].toNat / 8 % 2 := s.rx.field_toNat .reqack
  rw [State.rxReport, (flag_append_class_bits _ _).2, happ, if_neg (by decide), ← BitVec.testBit_toNat, hflag, hasked]
  rfl

theorem exists_hostActions_buildAck (s : State) :
    ∃ t, hostActions (assemble [.op .buildAck]) s = .next t ∧ s.Wrote .tx (s.rx.ackOf s.nodeId) t :=
  ⟨_, hostActions_assemble_op s .buildAck, rfl⟩

variable {n}

/-- A live, assigned node sends the acknowledgment, once (R272, R273). -/
theorem Node.exists_acknowledge (hlive : n.dev.halted = false) (hassigned : n.dev.nodeId ≠ 255)
    (hlen : n.dev.rx.len ≤ 25) :
    ∃ t, n.acknowledge true =
        .next (n.afterSend n.dev.rx.sender (stampedBytes (n.dev.rx.ackOf n.dev.nodeId)) t) ∧
      n.dev.Sent (n.dev.rx.ackOf n.dev.nodeId) (n.outcomes.headD false) t := by
  have hacklen : (n.dev.rx.ackOf n.dev.nodeId).len = n.dev.rx.len := by
    rw [Frame.len_eq, Frame.len_eq, Frame.getElem_ackOf]
    rfl
  have hdest : (n.dev.rx.ackOf n.dev.nodeId).dest = n.dev.rx.sender := Frame.getElem_ackOf _ _ 2 (by omega)
  obtain ⟨s, hs, hbuilt⟩ := exists_hostActions_buildAck n.dev
  obtain ⟨t, hroute, hsent⟩ := Node.exists_draft_routeWith _ (Node.run_of_next hs) hbuilt hlive (.inl hassigned)
    (hacklen.trans_le hlen)
  exact ⟨t, hdest ▸ hroute, hsent⟩

/-- The acknowledgment of a frame of this version, on the wire (R214). -/
theorem stampedBytes_ackOf {f : Frame} (hholds : f.Holds bytes) (hfits : (bytes.getD 3 0).toNat / 8 ≤ 25)
    (hversion : (bytes.getD 3 0).toNat % 4 = 2) (a : Byte) : stampedBytes (f.ackOf a) = ackBytes a bytes := by
  have hlength : (f.ackOf a)[3] = bytes.getD 3 0 :=
    (Frame.getElem_ackOf f a 3 (by omega)).trans (hholds.header 3 (by omega))
  have hstamp : BitVec.ofNat 8 ((bytes.getD 3 0).toNat / 4 * 4 + 2) = bytes.getD 3 0 := by
    rw [show (bytes.getD 3 0).toNat / 4 * 4 + 2 = (bytes.getD 3 0).toNat by omega, BitVec.ofNat_toNat, BitVec.setWidth_eq]
  rw [stampedBytes, ackBytes, hlength, hstamp]
  refine List.map_congr_left fun j hj => ?_
  have hj := List.mem_range.1 hj
  rw [Frame.byte, dif_pos (by omega), Frame.getElem_ackOf, setF_reqAck_ack, hholds.header 1 (by omega),
    hholds.header 4 (by omega), hholds j (by omega) hj]
  by_cases h : j = 3
  · rw [h]
    rfl
  · rw [if_neg h]

end Reception

end Sys2Proof.Machine

namespace Sys2Proof.Proofs.EngineBoundary

open Sys2Proof.Machine Sys2Proof.Spec

/-- Settles O56: the frame is classified as the application's, its acknowledgment is routed, and the RX frame is what was
received. -/
theorem acknowledgmentPrecedesTheCallback : Obligations.AcknowledgmentPrecedesTheCallback := by
  intro n bytes hlive hassigned hframe hasked happlication
  obtain ⟨t, g, hreceived, hholds, hprocess⟩ :=
    n.exists_receive_of_whole ⟨hframe.long, hframe.short, hframe.fits, hframe.announced⟩
  have hrx : t.rx = g := hreceived.fb_eq
  have happ : t.rxClass = .app := by
    rw [State.rxClass_eq_app_iff, hrx, hreceived.nodeId, hholds.header 3 (by omega), hholds.header 2 (by omega),
      hholds.header 4 (by omega), hholds.header 1 (by omega)]
    exact ⟨hframe.version, hframe.addressed, happlication⟩
  have hflag : t.rxReport.getLsbD 4 = true := State.flag_rxReport_of_app happ (by rwa [hrx, hholds.header 4 (by omega)])
  obtain ⟨u, hacknowledge, hsent⟩ := Node.exists_acknowledge (n := { n with dev := t }) (hreceived.halted.trans hlive)
    (fun h => hassigned (hreceived.nodeId.symm.trans h))
    (by rw [hrx, Frame.len_eq, hholds.header 3 (by omega)]; exact hframe.fits)
  rw [happ, hflag, if_neg (by decide), hacknowledge, NodeOut.andThen_next] at hprocess
  refine ⟨_, g, hprocess, rfl, ?_, ?_⟩
  · have hsender : t.rx.sender = bytes.getD 1 0 := hrx ▸ hholds.header 1 (by omega)
    have hbytes : stampedBytes (t.rx.ackOf t.nodeId) = ackBytes n.dev.nodeId bytes := by
      rw [hrx, hreceived.nodeId]
      exact stampedBytes_ackOf hholds hframe.fits hframe.version _
    have hcallback : u.rx = g := hsent.rx.trans hrx
    rw [← hsender, ← hbytes, ← hcallback]
    exact List.append_assoc _ _ _
  · intro j hj
    have := hframe.fits
    rw [Frame.byte, dif_pos (by omega), hholds j (by omega) hj]

end Sys2Proof.Proofs.EngineBoundary

/-! What every procedure keeps on a well-formed configuration: it answers, and it calls the application back only by the
dispatch of an application frame (R57, R272). -/

namespace Sys2Proof.Machine

theorem cfg_of_hostAction {a : HostAction} {s t : State} (h : hostAction a s = .next t) : t.cfg = s.cfg := by
  obtain ⟨-, hrun⟩ | ⟨p, -, rfl⟩ | ⟨-, -, p, rfl⟩ := hostAction_cases h
  · obtain ⟨i, -, heq⟩ | ⟨e, -, heq⟩ := runCommand_cases s
    · exact (Proofs.State.operationsLeaveInputsAndConfiguration i s t (heq.symm.trans hrun)).2.1
    · cases heq.symm.trans hrun
      rfl
  · exact State.resetEvent_cfg s p
  · exact State.setInp_cfg s p

/-- A well-formed block performs every sequence of host actions. -/
theorem exists_hostActions_of_wf (actions : List HostAction) {s : State} (hwf : s.cfg.wf = true) :
    ∃ t, hostActions actions s = .next t ∧ t.cfg = s.cfg := by
  induction actions generalizing s with
  | nil => exact ⟨s, rfl, rfl⟩
  | cons a rest ih =>
    obtain ⟨u, hu⟩ := exists_hostAction hwf a
    have hcfg := cfg_of_hostAction hu
    obtain ⟨t, ht, hcfg'⟩ := ih (hcfg ▸ hwf)
    exact ⟨t, (hostActions_cons_of_next hu).trans ht, hcfg'.trans hcfg⟩

/-- `m` is a node of a well-formed configuration whose log holds, of the entries that `p` picks, those of `log`. -/
structure Node.Keeps (p : EngineEvent → Bool) (log : List EngineEvent) (m : Node) : Prop where
  wf : m.dev.cfg.wf = true
  filter_eq : m.log.filter p = log.filter p

section KeptEntries

variable {p : EngineEvent → Bool} {n : Node} {log : List EngineEvent}

namespace Node.Keeps

theorem act (h : n.Keeps p log) (actions : List HostAction) : (n.act actions).Ends (Keeps p log) := by
  obtain ⟨t, ht, hcfg⟩ := exists_hostActions_of_wf actions h.wf
  refine ⟨{ n with dev := t }, ?_, hcfg ▸ h.wf, h.filter_eq⟩
  rw [Node.act, ht]

theorem run (h : n.Keeps p log) (lines : List AsmLine) : (n.run lines).Ends (Keeps p log) := h.act _

theorem reports (h : n.Keeps p log) (r : Report) : (n.reports r).Ends (Keeps p log) := ⟨_, rfl, h.wf, h.filter_eq⟩

theorem note (h : n.Keeps p log) {e : EngineEvent} (he : p e = false) : (n.note e).Keeps p log where
  wf := h.wf
  filter_eq := by
    rw [Node.note, List.filter_append, List.filter_singleton, he]
    exact (List.append_nil _).trans h.filter_eq

variable (hp : ∀ e : EngineEvent, e.isMessage = false → p e = false)
include hp

theorem transmit (h : n.Keeps p log) : n.transmit.Ends (Keeps p log) := by
  have htail : Keeps p log { n with outcomes := n.outcomes.tail } := ⟨h.wf, h.filter_eq⟩
  exact ((htail.note (hp _ rfl)).run _).andThen fun _ hm => hm.reports _

theorem routeWith (h : n.Keeps p log) {needId : Node → NodeOut}
    (hneed : ∀ m : Node, m.Keeps p log → (needId m).Ends (Keeps p log)) :
    (n.routeWith needId).Ends (Keeps p log) := by
  refine (h.run _).andThen fun m hm => ?_
  split_ifs
  · exact hneed m hm
  · exact hm.reports _
  · refine (hm.run _).andThen fun q hq => ?_
    split_ifs
    · exact hq.transmit hp
    · exact hq.reports _

theorem route (h : n.Keeps p log) : n.route.Ends (Keeps p log) :=
  h.routeWith hp fun _ hm =>
    ((hm.run _).andThen fun _ hq => hq.routeWith hp fun _ hr => hr.reports _).andThen fun _ hq => hq.reports _

theorem acknowledge (h : n.Keeps p log) (needed : Bool) : (n.acknowledge needed).Ends (Keeps p log) := by
  cases needed with
  | false => exact ⟨n, rfl, h⟩
  | true => exact (h.run _).andThen fun _ hm => hm.route hp

theorem timeResponse (h : n.Keeps p log) : n.timeResponse.Ends (Keeps p log) := by
  refine (h.run _).andThen fun m hm => ?_
  split_ifs
  · exact ⟨_, rfl, hm.note (hp _ rfl)⟩
  · exact ⟨_, rfl, hm⟩

/-- Only the application's class is called back (R272, R275 to R277). -/
theorem dispatch (h : n.Keeps p log) {k : BitVec 4} (happ : k = RxClass.app.code → ∀ f, p (.message f) = false) :
    (n.dispatch k).Ends (Keeps p log) := by
  unfold Node.dispatch
  split_ifs with hk
  · exact (h.note (happ hk _)).reports _
  · exact (h.act _).andThen fun _ hm => (hm.note (hp _ rfl)).reports _
  · exact (h.run _).andThen fun _ hm => hm.reports _
  · exact (h.run _).andThen fun _ hm => hm.reports _
  · exact (h.timeResponse hp).andThen fun _ hm => hm.reports _
  · exact h.reports _

/-- Bytes that are not an internal frame from the gateway are the only ones to call the application back. -/
theorem receive (h : n.Keeps p log) (bytes : List Byte)
    (happ : ¬ ((bytes.getD 4 0).toNat % 8 = 3 ∧ bytes.getD 1 0 = 0) → ∀ f, p (.message f) = false) :
    (n.receive bytes).Ends (Keeps p log) := by
  by_cases hwhole : WholeFrame bytes
  · obtain ⟨t, g, hreceived, hholds, hprocess⟩ := n.exists_receive_of_whole hwhole
    have ht : Keeps p log { n with dev := t } := ⟨hreceived.cfg ▸ h.wf, h.filter_eq⟩
    rw [hprocess]
    split_ifs
    · exact ht.reports _
    · refine (ht.acknowledge hp _).andThen fun q hq => hq.dispatch hp fun hclass => happ ?_
      obtain ⟨-, -, hexternal⟩ := t.rxClass_eq_app_iff.1 (RxClass.code_injective hclass)
      rwa [show t.rx = g from hreceived.fb_eq, hholds.header 4 (by omega), hholds.header 1 (by omega)] at hexternal
  · obtain ⟨t, hdropped, hwrote⟩ := n.exists_receive_of_not_whole hwhole
    exact ⟨_, hdropped, hwrote.cfg ▸ h.wf, h.filter_eq⟩

end Node.Keeps

/-- A well-formed node answers every poll (R272, R274). -/
theorem Node.exists_process (hwf : n.dev.cfg.wf = true) : n.process.Ends fun m => m.dev.cfg.wf = true := by
  unfold Node.process
  split
  next => exact ⟨_, rfl, hwf⟩
  next bytes rest _ =>
    exact (Keeps.receive (p := fun _ => false) (n := { n with inbox := rest }) (fun _ _ => rfl) ⟨hwf, rfl⟩ bytes
      fun _ _ => rfl).mono fun _ => Keeps.wf

theorem Node.exists_poll (k : Nat) (hwf : n.dev.cfg.wf = true) : (n.poll k).Ends fun m => m.dev.cfg.wf = true := by
  induction k generalizing n with
  | zero => exact Node.exists_process hwf
  | succ k ih =>
    refine (Node.exists_process hwf).andThen fun m hm => ?_
    split_ifs
    · exact ⟨m, rfl, hm⟩
    · exact ih hm

end KeptEntries

end Sys2Proof.Machine

namespace Sys2Proof.Proofs.EngineBoundary

open Sys2Proof.Machine

/-- Settles O57: the class of such a frame is not the application's, and no other dispatch calls the application back. -/
theorem gatewayInternalFramesStayInternal : Obligations.GatewayInternalFramesStayInternal := by
  intro n bytes hwf hinternal hgateway
  have h : n.Keeps EngineEvent.isMessage n.log := ⟨hwf, rfl⟩
  exact (h.receive (fun _ he => he) bytes fun hexternal => absurd ⟨hinternal, hgateway⟩ hexternal).mono
    fun _ => Node.Keeps.filter_eq

end Sys2Proof.Proofs.EngineBoundary

/-! Booting with a stored address: the loads, and the two frames of steps 4 and 5 (R274, R278). -/

namespace Sys2Proof.Machine

open Sys2Proof.Spec

section Boot

variable {n : Node}

/-- The presentation frame goes out to the gateway, stamped (R270, R278). -/
theorem Node.exists_presentation_route (hlive : n.dev.halted = false) (hassigned : n.dev.nodeId ≠ 255) :
    ∃ t, n.presentation.andThen Node.route =
        .next (n.afterSend 0 (presentationBytes n.dev.tx n.dev.nodeId n.params) t) ∧
      n.dev.Sent (Frame.presentation (n.dev.tx.set 1 n.dev.nodeId) n.params) (n.outcomes.headD false) t := by
  obtain ⟨s, hdraft, hwrote⟩ := n.exists_presentation
  obtain ⟨t, hroute, hsent⟩ := Node.exists_draft_routeWith _ hdraft hwrote hlive (.inl hassigned)
    ((Frame.len_presentation _ _).trans_le (by omega))
  rw [Frame.dest_presentation, stampedBytes_presentation] at hroute
  exact ⟨t, hroute, hsent⟩

/-- The configuration request goes out to the gateway, stamped (R270, R278). -/
theorem Node.exists_configRequest_route (hlive : n.dev.halted = false) (hassigned : n.dev.nodeId ≠ 255) :
    ∃ t, n.configRequest.andThen Node.route =
        .next (n.afterSend 0 (configRequestBytes n.dev.tx n.dev.nodeId n.dev.cfg n.params) t) ∧
      n.dev.Sent (Frame.internal (n.dev.tx.set 1 n.dev.nodeId) n.dev.cfg.iConfig n.params.sensorNode)
        (n.outcomes.headD false) t := by
  obtain ⟨s, hdraft, hwrote⟩ := n.exists_configRequest
  obtain ⟨t, hroute, hsent⟩ := Node.exists_draft_routeWith _ hdraft hwrote hlive (.inl hassigned)
    ((Frame.len_internal _ _ _).trans_le (by omega))
  rw [Frame.dest_internal, stampedBytes_internal] at hroute
  exact ⟨t, hroute, hsent⟩

/-- The configuration request keeps nothing of a presentation frame sent before it. -/
theorem configRequestBytes_presentation (f : Frame) (a : Byte) (c : Config) (p : EngineParams) :
    configRequestBytes (Frame.presentation (f.set 1 a) p).stamped a c p = configRequestBytes f a c p := by
  have hfirst : (Frame.presentation (f.set 1 a) p).stamped[0] = f[0] := by
    simp only [Frame.getElem_stamped, Frame.getElem_presentation, Vector.getElem_set]
    rfl
  have hflags : (Frame.presentation (f.set 1 a) p).stamped[3].toNat = 2 * 8 + f[3].toNat % 8 / 4 * 4 + 2 := by
    have hsender : (f.set 1 a)[3] = f[3] := Vector.getElem_set_ne _ _ (by omega)
    rw [Frame.getElem_stamped, if_pos rfl, Frame.getElem_presentation, if_neg (by omega), if_pos rfl, hsender,
      BitVec.toNat_ofNat, BitVec.toNat_ofNat]
    omega
  have hsame : (2 * 8 + f[3].toNat % 8 / 4 * 4 + 2) % 8 / 4 * 4 + 2 = f[3].toNat % 8 / 4 * 4 + 2 := by omega
  rw [configRequestBytes, configRequestBytes, hfirst, hflags, hsame]

/-- A send returns. -/
theorem Node.report_afterSend_ne (dest : Byte) (bytes : List Byte) (t : State) :
    (n.afterSend dest bytes t).report ≠ .restarting := by
  unfold Node.afterSend
  dsimp only
  split_ifs <;> decide

/-- Steps 4 and 5 of a boot: the presentation and then the configuration request, each with its own outcome (R274). -/
theorem Node.exists_presentation_configRequest (hreport : n.report ≠ .restarting) (hlive : n.dev.halted = false)
    (hassigned : n.dev.nodeId ≠ 255) :
    ∃ u v g h, n.dev.Sent g (n.outcomes.headD false) u ∧ u.Sent h (n.outcomes.tail.headD false) v ∧
      (NodeOut.unlessRestarting (.next n) fun m => m.presentation.andThen Node.route).unlessRestarting
          (fun m => m.configRequest.andThen Node.route) =
        .next ((n.afterSend 0 (presentationBytes n.dev.tx n.dev.nodeId n.params) u).afterSend 0
          (configRequestBytes n.dev.tx n.dev.nodeId n.dev.cfg n.params) v) := by
  obtain ⟨u, hpresent, hu⟩ := n.exists_presentation_route hlive hassigned
  obtain ⟨v, hconfig, hv⟩ := Node.exists_configRequest_route
    (n := n.afterSend 0 (presentationBytes n.dev.tx n.dev.nodeId n.params) u)
    (hu.halted.trans hlive) (fun h => hassigned (hu.nodeId.symm.trans h))
  have hbytes : configRequestBytes u.tx u.nodeId u.cfg n.params =
      configRequestBytes n.dev.tx n.dev.nodeId n.dev.cfg n.params := by
    rw [hu.tx, hu.nodeId, hu.cfg]
    exact configRequestBytes_presentation _ _ _ _
  refine ⟨u, v, _, _, hu, hv, ?_⟩
  rw [NodeOut.unlessRestarting_next hreport, hpresent, NodeOut.unlessRestarting_next (Node.report_afterSend_ne _ _ _),
    hconfig, ← hbytes]
  rfl

/-- `t` is `s` with the address `a` loaded; beyond it only the host's registers, `RES`, `STATUS` and the unit preference
may differ. -/
def State.Loaded (s : State) (a : Byte) (t : State) : Prop :=
  t = { s with
    inp := t.inp, res := t.res, status := t.status, nodeId := a, unitPref := t.unitPref, reqPending := false }

theorem exists_hostActions_idLoad {s : State} (hwf : s.cfg.wf = true) (hlive : s.halted = false) :
    ∃ t, hostActions (assemble [.op .idLoad]) s = .next t ∧ s.Loaded (s.storage.read s.cfg.eeNodeId) t := by
  have hload := execIdLoad_of_wf (s := { s with inp := { s.inp with cmd := encode .idLoad } }) hwf
  rw [if_neg (by simp [hlive])] at hload
  exact ⟨_, (hostActions_assemble_op s .idLoad).trans hload, rfl⟩

theorem exists_hostActions_cfgLoad {s : State} (hwf : s.cfg.wf = true) :
    ∃ t, hostActions (assemble [.op .cfgLoad]) s = .next t ∧
      t = { s with inp := t.inp, status := t.status, unitPref := t.unitPref } :=
  ⟨_, (hostActions_assemble_op s .cfgLoad).trans (execCfgLoad_of_wf hwf), rfl⟩

/-- A read after a load. -/
theorem State.Loaded.wrote {s t u : State} {a : Byte} (hst : s.Loaded a t) (htu : t.Wrote .tx t.tx u) : s.Loaded a u := by
  rw [State.Loaded, htu, hst]
  rfl

/-- The loads of step 1 and the reading of the address that storage holds (R274). -/
theorem exists_hostActions_load {s : State} (hwf : s.cfg.wf = true) (hlive : s.halted = false) :
    ∃ t, hostActions (assemble [.op .idLoad, .op .cfgLoad, .op .getNodeId]) s = .next t ∧
      s.Loaded (s.storage.read s.cfg.eeNodeId) t ∧ t.res = (s.storage.read s.cfg.eeNodeId).setWidth 32 := by
  obtain ⟨t, ht, hid⟩ := exists_hostActions_idLoad hwf hlive
  have hcfg : t.cfg = s.cfg := (congrArg State.cfg hid :)
  obtain ⟨u, hu, hunit⟩ := exists_hostActions_cfgLoad (hcfg ▸ hwf)
  have hloaded : s.Loaded (s.storage.read s.cfg.eeNodeId) u := by
    rw [State.Loaded, hunit, hid]
  obtain ⟨v, hv, hread, hres⟩ := exists_hostActions_getNodeId u
  have hnode : u.nodeId = s.storage.read s.cfg.eeNodeId := (congrArg State.nodeId hloaded :)
  exact ⟨v, (hostActions_assemble_cons ht).trans ((hostActions_assemble_cons hu).trans hv), hloaded.wrote hread,
    hnode ▸ hres⟩

/-- The node after steps 1 to 3 of a boot with the address `a`, its block in state `t`. -/
def Node.booted (n : Node) (a : Byte) (power frequency : Nat) (t : State) : Node :=
  { n with dev := t, log := n.log ++ [.init a power frequency] ++ [.bootstrapped true], report := .none }

/-- Steps 1 to 3 of a boot with a stored address: no address is asked for, and steps 4 and 5 follow (R274). -/
theorem Node.exists_announce (power frequency : Nat) (hwf : n.dev.cfg.wf = true) (hlive : n.dev.halted = false)
    (hstored : n.dev.storage.read n.dev.cfg.eeNodeId ≠ 255) :
    ∃ t, n.dev.Loaded (n.dev.storage.read n.dev.cfg.eeNodeId) t ∧
      n.announce none power frequency =
        (NodeOut.unlessRestarting (.next (n.booted (n.dev.storage.read n.dev.cfg.eeNodeId) power frequency t))
          fun m => m.presentation.andThen Node.route).unlessRestarting fun m => m.configRequest.andThen Node.route := by
  obtain ⟨s, hs, hloaded, hres⟩ := exists_hostActions_load hwf hlive
  obtain ⟨t, ht, hread, hres'⟩ := exists_hostActions_getNodeId s
  have hnode : s.nodeId = n.dev.storage.read n.dev.cfg.eeNodeId := (congrArg State.nodeId hloaded :)
  have hread1 : lowByte s.res = n.dev.storage.read n.dev.cfg.eeNodeId := by rw [hres, lowByte_setWidth]
  have hread2 : lowByte t.res = n.dev.storage.read n.dev.cfg.eeNodeId := by rw [hres', lowByte_setWidth, hnode]
  have hassigned : decide (lowByte t.res ≠ autoAddress) = true := decide_eq_true (hread2 ▸ hstored)
  refine ⟨t, hloaded.wrote hread, ?_⟩
  have hobtain (m : Node) (hm : m.dev = s) : m.obtainAddress none = .next m := by
    subst hm
    exact if_neg (hread1 ▸ hstored)
  have hreread (m : Node) (hm : m.dev = s) : m.run [.op .getNodeId] = .next { m with dev := t } :=
    Node.run_of_next (hm ▸ ht)
  unfold Node.announce
  dsimp only
  rw [Node.run_of_next hs, NodeOut.andThen_next, hread1, Node.reports, NodeOut.andThen_next, hobtain _ rfl,
    NodeOut.unlessRestarting_next (by nofun), hreread _ rfl, NodeOut.andThen_next, hassigned]
  rfl

end Boot

end Sys2Proof.Machine

namespace Sys2Proof.Proofs.EngineBoundary

open Sys2Proof.Machine Sys2Proof.Spec

/-- Settles O60: the loads give the node its address, so no request is made, and each of the two drafts passes the
gate. -/
theorem bootWithAStoredAddress : Obligations.BootWithAStoredAddress := by
  intro n power frequency hwf hlive hstored a ok1 ok2
  obtain ⟨s, hloaded, hannounce⟩ := Node.exists_announce power frequency hwf hlive hstored
  have hnode : s.nodeId = a := (congrArg State.nodeId hloaded :)
  have hcfg : s.cfg = n.dev.cfg := (congrArg State.cfg hloaded :)
  obtain ⟨u, v, g, h, hu, hv, hsends⟩ := Node.exists_presentation_configRequest (n := n.booted a power frequency s)
    nofun ((congrArg State.halted hloaded :).trans hlive) (fun hauto => hstored (hnode.symm.trans hauto))
  obtain ⟨hpresented, hrequested⟩ : presentationBytes s.tx s.nodeId n.params = presentationBytes n.dev.tx a n.params ∧
      configRequestBytes s.tx s.nodeId s.cfg n.params = configRequestBytes n.dev.tx a n.dev.cfg n.params := by
    rw [hnode, hcfg, show s.tx = n.dev.tx from (congrArg State.tx hloaded :)]
    exact ⟨rfl, rfl⟩
  have hw := hannounce.trans hsends
  obtain ⟨m, hpoll, -⟩ := Node.exists_poll n.params.finalPolls (n := Node.afterSend _ _ _ v)
    ((hv.cfg.trans (hu.cfg.trans hcfg)).symm ▸ hwf)
  refine ⟨_, m, hw, ?_, hpoll, ?_, hv.nodeId.trans (hu.nodeId.trans hnode), ?_, ?_, rfl, rfl, ?_⟩
  · rw [Node.begin, hw, NodeOut.unlessRestarting_next (Node.report_afterSend_ne _ _ _)]
    rfl
  · rw [← hpresented, ← hrequested]
    exact (List.append_assoc _ _ _).trans ((List.append_assoc _ _ _).trans (List.append_assoc _ _ _))
  · exact hv.rx.trans (hu.rx.trans (congrArg State.rx hloaded :))
  · exact hv.storageWrites.trans (hu.storageWrites.trans (congrArg State.storageWrites hloaded :))
  · have hcount : s.failCnt = n.dev.failCnt := (congrArg State.failCnt hloaded :)
    rw [← hcount]
    exact hv.failCnt.trans (congrArg (fun c => if ok2 = true then 0 else c + 1) hu.failCnt)

end Sys2Proof.Proofs.EngineBoundary

/-! How an operation completes (R28, R300), and which codes it reports where it changed more than `STATUS` (R302): both
read off the effects. -/

namespace Sys2Proof.Machine

/-- Operation `i` on state `s` may report `st` and have changed more than `STATUS`. The codes R302 calls refusals stand
here only for the operations it leaves out: a read that clears its result or cuts a payload (R170, R182), a refused encode
(R212), and the adoption that enters the halt (R248). -/
def ReportsChange (i : Instr) (s : State) : Status → Prop
  | .ok | .truncated | .outOverflow => True
  | .typeMismatch => i.buf?.isSome = true
  | .malformed => i.buf?.isSome = true ∨ i = .wireEncode
  | .deniedAuto => i = .wireEncode
  | .halted => i = .wireEncode ∨ s.halted = false
  | .illegalOp | .illegalState | .badOperand | .hexInvalid => False

section Reports

variable {i : Instr} {s t : State}

/-- Every effect ends in `finish`: with `STATUS` alone changed, or with a code that may report a change. -/
theorem Effect.exists_report (he : Effect i s t) :
    ∃ st : Status, t.status = st.code ∧ (t = s.finish st ∨ ReportsChange i s st) := by
  cases he with
  | statusOnly st => exact ⟨st, rfl, .inl rfl⟩
  | mismatched hbuf => exact ⟨.typeMismatch, rfl, .inr hbuf⟩
  | frameWritten b f st _ hst =>
    refine ⟨st, rfl, .inr ?_⟩
    rcases hst with rfl | rfl <;> exact trivial
  | textDelivered text st hbuf _ hst =>
    refine ⟨st, rfl, .inr ?_⟩
    simp only [List.mem_cons, List.not_mem_nil, or_false] at hst
    rcases hst with rfl | rfl | rfl | rfl
    · exact trivial
    · exact hbuf
    · exact .inl hbuf
    · exact trivial
  | nothingOffered st hi hst =>
    refine ⟨st, rfl, .inr ?_⟩
    simp only [List.mem_cons, List.not_mem_nil, or_false] at hst
    rcases hst with rfl | rfl | rfl
    · exact .inl hi
    · exact .inr hi
    · exact hi
  | haltEntered _ hlive => exact ⟨.halted, rfl, .inr (.inr hlive)⟩
  | _ => exact ⟨.ok, rfl, .inr trivial⟩

theorem status_le_of_exec (h : exec i s = .next t) : t.status.toNat ≤ 0x0A := by
  obtain ⟨st, hst, -⟩ := (exec_effect h).exists_report
  exact hst ▸ Status.code_le st

theorem exists_step (hwf : s.cfg.wf = true) : ∃ t, step s = .next t := by
  cases hscript : s.script with
  | nil => exact ⟨s, by unfold step; rw [if_pos hwf, hscript]⟩
  | cons a rest =>
    rw [step_of_cons hwf hscript]
    exact exists_hostAction (s := { s with script := rest }) hwf a

theorem not_mem_identityOps_of_buf? (h : i.buf?.isSome = true) : i ∉ Spec.identityOps := fun hi =>
  absurd h ((by decide : ∀ j ∈ Spec.identityOps, ¬ j.buf?.isSome = true) i hi)

end Reports

end Sys2Proof.Machine

namespace Sys2Proof.Proofs.Exceptions

open Sys2Proof.Machine Sys2Proof.Spec

/-- Settles O9: an operation completes with the code of its effect, and a step is idle or a host action, which completes. -/
theorem everyOperationCompletes : Obligations.EveryOperationCompletes := by
  refine ⟨fun i s hwf => ?_, fun s => exists_step⟩
  obtain ⟨t, ht⟩ := exists_exec hwf i
  exact ⟨t, ht, status_le_of_exec ht⟩

/-- Settles O49: a code that may report a change is none of R302's refusals, or R302 does not name it for this
operation. -/
theorem refusedOperationsChangeOnlyStatus : Obligations.RefusedOperationsChangeOnlyStatus := by
  intro i s t hexec hrefused
  obtain ⟨st, hst, rfl | hreports⟩ := (exec_effect hexec).exists_report
  · rfl
  rw [hst] at hrefused
  exfalso
  cases st with
  | ok | truncated | outOverflow | deniedAuto => simp [Status.code] at hrefused
  | illegalOp | illegalState | badOperand | hexInvalid => exact hreports
  | typeMismatch =>
    have hi : i ∈ identityOps := by simpa [Status.code] using hrefused
    exact not_mem_identityOps_of_buf? hreports hi
  | malformed =>
    obtain rfl : i = .wireDecode := by simpa [Status.code] using hrefused
    rcases hreports with hbuf | hencode
    · cases hbuf
    · cases hencode
  | halted =>
    obtain ⟨hhalted, hi⟩ : s.halted = true ∧ i ∈ identityOps := by simpa [Status.code] using hrefused
    rcases hreports with rfl | hlive
    · exact absurd hi (by decide)
    · exact absurd hhalted (by simp [hlive])

end Sys2Proof.Proofs.Exceptions

/-! The reset event (R320 to R322): what the step at which it happens leaves, and the load that follows it. -/

namespace Sys2Proof.Machine

section ResetStep

variable {s : State} {after : Inputs} {rest : List HostAction}

/-- A step at which the host resets is the reset event, with that action taken off the script (R320). -/
theorem step_of_reset (hwf : s.cfg.wf = true) (hs : s.script = .reset after :: rest) :
    step s = .next (State.resetEvent { s with script := rest } after) :=
  step_of_cons hwf hs

/-- A load right after a reset is not refused, whether or not the node was halted, and gives the stored address
(R231, R322). -/
theorem exists_exec_idLoad_resetEvent (hwf : s.cfg.wf = true) (after : Inputs) :
    ∃ u, exec .idLoad (s.resetEvent after) = .next u ∧ u.nodeId = s.storage.read s.cfg.eeNodeId := by
  have hload := execIdLoad_of_wf (s := s.resetEvent after) hwf
  have hlive : ¬ (s.resetEvent after).halted = true := Bool.false_ne_true
  rw [if_neg hlive] at hload
  exact ⟨_, hload, rfl⟩

end ResetStep

end Sys2Proof.Machine

namespace Sys2Proof.Proofs.Reset

open Sys2Proof.Machine

/-- Settles O6: the step is the reset event, whose registers are those of `State.reset`, and the halt it clears
cannot refuse the load. -/
theorem resetEventRestoresRegistersKeepsStorage : Obligations.ResetEventRestoresRegistersKeepsStorage := by
  intro s after rest hwf hs
  have hframes : ∀ (j : Nat) (h : j < 33), State.reset.tx[j] = 0 ∧ State.reset.rx[j] = 0 := fun _ h =>
    ⟨Vector.getElem_replicate h, Vector.getElem_replicate h⟩
  have hsout : ∀ (j : Nat) (h : j < 50), State.reset.sout[j] = 0 := fun _ h => Vector.getElem_replicate h
  have hwireOut : ∀ (j : Nat) (h : j < 32), State.reset.wireOut[j] = 0 := fun _ h => Vector.getElem_replicate h
  have hload := exists_exec_idLoad_resetEvent (s := { s with script := rest }) hwf after
  exact ⟨_, step_of_reset hwf hs, hframes, rfl, rfl, rfl, rfl, rfl, rfl, hsout, rfl, rfl, hwireOut, rfl, rfl, rfl, rfl,
    rfl, rfl, rfl, hload⟩

end Sys2Proof.Proofs.Reset
